-- ==== Sys2Proof/Word.lean ====
section
/-! DEFINITION. The words of the block: bytes, the 16-bit and 32-bit words, and byte sequences
(`00_scope.md` rules R6, R8 and R9). -/

namespace Sys2Proof

/-- A byte: an unsigned 8-bit value, bit 0 the least significant (R8). -/
abbrev Byte := BitVec 8

/-- A 16-bit word: a command word (R70), a bus address (R50), a DPT7, DPT8 or DPT9 word. -/
abbrev Word := BitVec 16

/-- A 32-bit word: `STATUS` (R27), and the DPT12, DPT13 and DPT14 patterns (R86). -/
abbrev Long := BitVec 32

/-- A byte sequence, offset 0 first (R9). -/
abbrev Bytes := List Byte

/-- A text: its character codes in order (R13). A code is a number, not a byte: `DPT4_HIGH` may give
codes above 255 (log entry 6). -/
abbrev Text := List Nat

end Sys2Proof
end

