-- ==== Sys2Proof/Syntax.lean ====
section
/-! DEFINITION. The instructions of the block: one constructor for each row of `spec/opcode_table.json`
(`30_encoding.md` R92), in the table's order, and the sixteen datapoint types. The rows come in four
formats. A `cmd16` row is a command word that the host issues. A `frame_len`, `telegram_embedded` or
`telegram_extended` row is a kind of frame, and FEED's drain loop runs it (log entry 7). -/

namespace Sys2Proof

/-- The sixteen recognised datapoint types (R3, R80). -/
inductive Dpt where
  | dpt1 | dpt2 | dpt3 | dpt4 | dpt5 | dpt6 | dpt7 | dpt8
  | dpt9 | dpt10 | dpt11 | dpt12 | dpt13 | dpt14 | dpt16 | dpt232
deriving DecidableEq, Repr

/-- The four formats of the opcode table (R92). -/
inductive Format where
  | cmd16
  | frameLen
  | telegramEmbedded
  | telegramExtended
deriving DecidableEq, Repr

/-- The instructions. A field is a bit group that the row leaves free: a datapoint code `k`, a length
field `n`, a control byte `c`, the low bit `b` of a two-value row, the low bits `j` of `FRAME.MALFORMED`,
or the two bytes of a word that only `ILLEGAL` matches. -/
inductive Instr where
  /-- `FEED` (R100). -/
  | feed
  /-- `DECODE_AS.DPT1` (R142). -/
  | decodeAsDpt1
  /-- `DECODE_AS.DPT2` (R143). -/
  | decodeAsDpt2
  /-- `DECODE_AS.DPT3` (R144). -/
  | decodeAsDpt3
  /-- `DECODE_AS.DPT4` (R145). -/
  | decodeAsDpt4
  /-- `DECODE_AS.DPT5` (R146). -/
  | decodeAsDpt5
  /-- `DECODE_AS.DPT6` (R147). -/
  | decodeAsDpt6
  /-- `DECODE_AS.DPT7` (R148). -/
  | decodeAsDpt7
  /-- `DECODE_AS.DPT8` (R149). -/
  | decodeAsDpt8
  /-- `DECODE_AS.DPT9` (R150). -/
  | decodeAsDpt9
  /-- `DECODE_AS.DPT10` (R151). -/
  | decodeAsDpt10
  /-- `DECODE_AS.DPT11` (R153). -/
  | decodeAsDpt11
  /-- `DECODE_AS.DPT12` (R154). -/
  | decodeAsDpt12
  /-- `DECODE_AS.DPT13` (R155). -/
  | decodeAsDpt13
  /-- `DECODE_AS.DPT14` (R156). -/
  | decodeAsDpt14
  /-- `DECODE_AS.DPT16` (R157). -/
  | decodeAsDpt16
  /-- `DECODE_AS.DPT232` (R158). -/
  | decodeAsDpt232
  /-- `DECODE_AS.unknown` (R140). -/
  | decodeAsUnknown (k : Byte)
  /-- `DECODE_GUESS` (R185). -/
  | decodeGuess (n : Byte)
  /-- `ENCODE.DPT1` (R191). -/
  | encodeDpt1
  /-- `ENCODE.DPT2` (R192). -/
  | encodeDpt2
  /-- `ENCODE.DPT3` (R193). -/
  | encodeDpt3
  /-- `ENCODE.DPT5` (R194). -/
  | encodeDpt5
  /-- `ENCODE.DPT7` (R195). -/
  | encodeDpt7
  /-- `ENCODE.DPT9` (R196). -/
  | encodeDpt9
  /-- `ENCODE.DPT10` (R197). -/
  | encodeDpt10
  /-- `ENCODE.DPT11` (R198). -/
  | encodeDpt11
  /-- `ENCODE.DPT14` (R199). -/
  | encodeDpt14
  /-- `ENCODE.DPT4` (R190). -/
  | encodeDpt4
  /-- `ENCODE.DPT6` (R190). -/
  | encodeDpt6
  /-- `ENCODE.DPT8` (R190). -/
  | encodeDpt8
  /-- `ENCODE.DPT12` (R190). -/
  | encodeDpt12
  /-- `ENCODE.DPT13` (R190). -/
  | encodeDpt13
  /-- `ENCODE.DPT16` (R190). -/
  | encodeDpt16
  /-- `ENCODE.DPT232` (R190). -/
  | encodeDpt232
  /-- `ENCODE.unknown` (R190). -/
  | encodeUnknown (k : Byte)
  /-- `STATUS` (R222). -/
  | status
  /-- `RESET` (R223). -/
  | reset
  /-- `ILLEGAL` (R221). -/
  | illegal (op arg : Byte)
  /-- `FRAME.SHORT` (R105). -/
  | frameShort (b : BitVec 1)
  /-- `FRAME.CONFIRM` (R105). -/
  | frameConfirm
  /-- `FRAME.ACK` (R105). -/
  | frameAck
  /-- `FRAME.MALFORMED` (R106). -/
  | frameMalformed (j : BitVec 2)
  /-- `FRAME.TELEGRAM` (R107). -/
  | frameTelegram (n : Byte)
  /-- `TELEGRAM.READ_PURE` (R113). -/
  | telegramReadPure
  /-- `TELEGRAM.WRITE_EMB` (R114). -/
  | telegramWriteEmb (b : BitVec 1)
  /-- `TELEGRAM.RESPONSE_EMB` (R114). -/
  | telegramResponseEmb (b : BitVec 1)
  /-- `TELEGRAM.UNKNOWN_EMB` (R114). -/
  | telegramUnknownEmb (c : Byte)
  /-- `TELEGRAM.READ_EXT` (R114). -/
  | telegramReadExt
  /-- `TELEGRAM.WRITE_EXT` (R114). -/
  | telegramWriteExt (b : BitVec 1)
  /-- `TELEGRAM.RESPONSE_EXT` (R114). -/
  | telegramResponseExt (b : BitVec 1)
  /-- `TELEGRAM.UNKNOWN_EXT` (R114). -/
  | telegramUnknownExt (c : Byte)
deriving DecidableEq, Repr

end Sys2Proof
end

