-- ==== Sys2Proof/WellFormed.lean ====
section
/-! DEFINITION. Which instructions are well formed: those whose fields hold a value their own row of the
opcode table wins (`30_encoding.md` R72, R76, R78, R80, R81 and R92). -/

namespace Sys2Proof

/-- The recognised DPT codes (R80). Every other code is unknown (R81). -/
def recognisedCodes : List Byte := [1, 2, 3, 4, 5, 6, 7, 8, 9, 10, 11, 12, 13, 14, 16, 232]

/-- The control bytes that name an action (R78): read, write (two values) and response (two values). -/
def actionBytes : List Byte := [0x00, 0x80, 0x81, 0x40, 0x41]

/-- Whether a command word is legal (R72): a known `OP`, and `ARG = 0` for FEED, STATUS and RESET. -/
def legalCommand (op arg : Byte) : Bool :=
  ((op == 0x01 || op == 0x05 || op == 0x06) && arg == 0) || op == 0x02 || op == 0x03 || op == 0x04

/-- An instruction whose fields are in the range its row gives them. -/
def Instr.wellFormed : Instr → Bool
  | .feed | .decodeAsDpt1 | .decodeAsDpt2 | .decodeAsDpt3 => true
  | .decodeAsDpt4 | .decodeAsDpt5 | .decodeAsDpt6 | .decodeAsDpt7 => true
  | .decodeAsDpt8 | .decodeAsDpt9 | .decodeAsDpt10 | .decodeAsDpt11 => true
  | .decodeAsDpt12 | .decodeAsDpt13 | .decodeAsDpt14 | .decodeAsDpt16 => true
  | .decodeAsDpt232 => true
  | .decodeAsUnknown k => !recognisedCodes.contains k
  | .decodeGuess _ | .encodeDpt1 | .encodeDpt2 | .encodeDpt3 => true
  | .encodeDpt5 | .encodeDpt7 | .encodeDpt9 | .encodeDpt10 => true
  | .encodeDpt11 | .encodeDpt14 | .encodeDpt4 | .encodeDpt6 => true
  | .encodeDpt8 | .encodeDpt12 | .encodeDpt13 | .encodeDpt16 => true
  | .encodeDpt232 => true
  | .encodeUnknown k => !recognisedCodes.contains k
  | .status | .reset => true
  | .illegal op arg => !legalCommand op arg
  | .frameShort _ | .frameConfirm | .frameAck | .frameMalformed _ => true
  | .frameTelegram n => decide (8 ≤ n.toNat)
  | .telegramReadPure | .telegramWriteEmb _ | .telegramResponseEmb _ => true
  | .telegramUnknownEmb c => !actionBytes.contains c
  | .telegramReadExt | .telegramWriteExt _ | .telegramResponseExt _ => true
  | .telegramUnknownExt c => !actionBytes.contains c

/-- `i` is well formed. -/
abbrev Instr.WellFormed (i : Instr) : Prop := i.wellFormed = true

end Sys2Proof
end

