-- ==== Sys2Proof/Decode.lean ====
section
/-! DEFINITION. Decoding the four formats of the opcode table, the encoder written from the same tables,
the table itself as rows of mask and match, and the host's numbering of a table word
(`30_encoding.md` R70 to R81 and R92). -/

namespace Sys2Proof

/-! ## Fields of words -/

/-- Bits 15:8 of a word: `OP` of a command word (R70), `F[1]` of a telegram key (R92), the byte at the
lower offset of a big-endian field (R52). -/
def hiByte (w : Word) : Byte := w.extractLsb' 8 8

/-- Bits 7:0 of a word. -/
def loByte (w : Word) : Byte := w.extractLsb' 0 8

/-- The word with the given high and low bytes: `hi * 256 + lo` (R9). -/
def wordOf (hi lo : Byte) : Word := BitVec.ofNat 16 (hi.toNat * 256 + lo.toNat)

/-! ## Datapoint codes (R79, R80) -/

/-- The code of `DPTk` is the number `k` (R79). -/
def Dpt.code : Dpt → Byte
  | .dpt1 => 1
  | .dpt2 => 2
  | .dpt3 => 3
  | .dpt4 => 4
  | .dpt5 => 5
  | .dpt6 => 6
  | .dpt7 => 7
  | .dpt8 => 8
  | .dpt9 => 9
  | .dpt10 => 10
  | .dpt11 => 11
  | .dpt12 => 12
  | .dpt13 => 13
  | .dpt14 => 14
  | .dpt16 => 16
  | .dpt232 => 232

/-- The sixteen datapoint types, in the order of R80. -/
def Dpt.all : List Dpt :=
  [.dpt1, .dpt2, .dpt3, .dpt4, .dpt5, .dpt6, .dpt7, .dpt8,
   .dpt9, .dpt10, .dpt11, .dpt12, .dpt13, .dpt14, .dpt16, .dpt232]

/-- The datapoint type a code names; none for an unknown code (R81). -/
def Dpt.ofCode (k : Byte) : Option Dpt := Dpt.all.find? (fun d => d.code == k)

/-! ## Decoding -/

/-- The `DECODE_AS.DPTk` row of a recognised code. -/
def decodeAsRow : Dpt → Instr
  | .dpt1 => .decodeAsDpt1
  | .dpt2 => .decodeAsDpt2
  | .dpt3 => .decodeAsDpt3
  | .dpt4 => .decodeAsDpt4
  | .dpt5 => .decodeAsDpt5
  | .dpt6 => .decodeAsDpt6
  | .dpt7 => .decodeAsDpt7
  | .dpt8 => .decodeAsDpt8
  | .dpt9 => .decodeAsDpt9
  | .dpt10 => .decodeAsDpt10
  | .dpt11 => .decodeAsDpt11
  | .dpt12 => .decodeAsDpt12
  | .dpt13 => .decodeAsDpt13
  | .dpt14 => .decodeAsDpt14
  | .dpt16 => .decodeAsDpt16
  | .dpt232 => .decodeAsDpt232

/-- The `ENCODE.DPTk` row of a recognised code. -/
def encodeRow : Dpt → Instr
  | .dpt1 => .encodeDpt1
  | .dpt2 => .encodeDpt2
  | .dpt3 => .encodeDpt3
  | .dpt4 => .encodeDpt4
  | .dpt5 => .encodeDpt5
  | .dpt6 => .encodeDpt6
  | .dpt7 => .encodeDpt7
  | .dpt8 => .encodeDpt8
  | .dpt9 => .encodeDpt9
  | .dpt10 => .encodeDpt10
  | .dpt11 => .encodeDpt11
  | .dpt12 => .encodeDpt12
  | .dpt13 => .encodeDpt13
  | .dpt14 => .encodeDpt14
  | .dpt16 => .encodeDpt16
  | .dpt232 => .encodeDpt232

/-- The command a 16-bit command word names (R70 to R72). Every word names one: a word that is no legal
command is `ILLEGAL` (R221). -/
def decodeCommand (w : Word) : Instr :=
  let op := hiByte w
  let arg := loByte w
  if op = 0x01 ∧ arg = 0 then .feed
  else if op = 0x02 then
    match Dpt.ofCode arg with
    | some d => decodeAsRow d
    | none => .decodeAsUnknown arg
  else if op = 0x03 then .decodeGuess arg
  else if op = 0x04 then
    match Dpt.ofCode arg with
    | some d => encodeRow d
    | none => .encodeUnknown arg
  else if op = 0x05 ∧ arg = 0 then .status
  else if op = 0x06 ∧ arg = 0 then .reset
  else .illegal op arg

/-- The kind of frame a length byte `n` tells (R76). -/
def decodeFrameLen (n : Byte) : Instr :=
  if n.toNat ≤ 1 then .frameShort (n.extractLsb' 0 1)
  else if n = 2 then .frameConfirm
  else if n = 3 then .frameAck
  else if n.toNat ≤ 7 then .frameMalformed (n.extractLsb' 0 2)
  else .frameTelegram n

/-- The kind of an embedded telegram (`n = 8`) with control byte `c` (R78, R92). -/
def decodeEmbedded (c : Byte) : Instr :=
  if c = 0x00 then .telegramReadPure
  else if c = 0x80 ∨ c = 0x81 then .telegramWriteEmb (c.extractLsb' 0 1)
  else if c = 0x40 ∨ c = 0x41 then .telegramResponseEmb (c.extractLsb' 0 1)
  else .telegramUnknownEmb c

/-- The kind of an extended telegram (`n ≥ 9`) with control byte `c` (R78, R92). -/
def decodeExtended (c : Byte) : Instr :=
  if c = 0x00 then .telegramReadExt
  else if c = 0x80 ∨ c = 0x81 then .telegramWriteExt (c.extractLsb' 0 1)
  else if c = 0x40 ∨ c = 0x41 then .telegramResponseExt (c.extractLsb' 0 1)
  else .telegramUnknownExt c

/-- Why a word is no word of its format. -/
inductive DecodeReject where
  /-- A one-byte format was given a word with bits set above bit 7. -/
  | moreThanOneByte (w : Word)
  /-- A telegram key whose high byte, `F[1]`, is not 8: no row of `telegram_embedded` matches it. -/
  | notEmbeddedKey (w : Word)
deriving DecidableEq, Repr

/-- The instruction a word of a format names, or why it names none. -/
def decode : Format → Word → Except DecodeReject Instr
  | .cmd16, w => .ok (decodeCommand w)
  | .frameLen, w => if hiByte w = 0 then .ok (decodeFrameLen (loByte w)) else .error (.moreThanOneByte w)
  | .telegramEmbedded, w =>
    if hiByte w = 8 then .ok (decodeEmbedded (loByte w)) else .error (.notEmbeddedKey w)
  | .telegramExtended, w =>
    if hiByte w = 0 then .ok (decodeExtended (loByte w)) else .error (.moreThanOneByte w)

/-! ## Encoding -/

/-- The format an instruction's row belongs to, and the instruction's word in it, a one-byte format's
byte in bits 7:0 (R71, R76, R78, R80, R92). -/
def encode : Instr → Format × Word
  | .feed => (.cmd16, 0x0100)
  | .decodeAsDpt1 => (.cmd16, 0x0201)
  | .decodeAsDpt2 => (.cmd16, 0x0202)
  | .decodeAsDpt3 => (.cmd16, 0x0203)
  | .decodeAsDpt4 => (.cmd16, 0x0204)
  | .decodeAsDpt5 => (.cmd16, 0x0205)
  | .decodeAsDpt6 => (.cmd16, 0x0206)
  | .decodeAsDpt7 => (.cmd16, 0x0207)
  | .decodeAsDpt8 => (.cmd16, 0x0208)
  | .decodeAsDpt9 => (.cmd16, 0x0209)
  | .decodeAsDpt10 => (.cmd16, 0x020A)
  | .decodeAsDpt11 => (.cmd16, 0x020B)
  | .decodeAsDpt12 => (.cmd16, 0x020C)
  | .decodeAsDpt13 => (.cmd16, 0x020D)
  | .decodeAsDpt14 => (.cmd16, 0x020E)
  | .decodeAsDpt16 => (.cmd16, 0x0210)
  | .decodeAsDpt232 => (.cmd16, 0x02E8)
  | .decodeAsUnknown k => (.cmd16, wordOf 0x02 k)
  | .decodeGuess n => (.cmd16, wordOf 0x03 n)
  | .encodeDpt1 => (.cmd16, 0x0401)
  | .encodeDpt2 => (.cmd16, 0x0402)
  | .encodeDpt3 => (.cmd16, 0x0403)
  | .encodeDpt5 => (.cmd16, 0x0405)
  | .encodeDpt7 => (.cmd16, 0x0407)
  | .encodeDpt9 => (.cmd16, 0x0409)
  | .encodeDpt10 => (.cmd16, 0x040A)
  | .encodeDpt11 => (.cmd16, 0x040B)
  | .encodeDpt14 => (.cmd16, 0x040E)
  | .encodeDpt4 => (.cmd16, 0x0404)
  | .encodeDpt6 => (.cmd16, 0x0406)
  | .encodeDpt8 => (.cmd16, 0x0408)
  | .encodeDpt12 => (.cmd16, 0x040C)
  | .encodeDpt13 => (.cmd16, 0x040D)
  | .encodeDpt16 => (.cmd16, 0x0410)
  | .encodeDpt232 => (.cmd16, 0x04E8)
  | .encodeUnknown k => (.cmd16, wordOf 0x04 k)
  | .status => (.cmd16, 0x0500)
  | .reset => (.cmd16, 0x0600)
  | .illegal op arg => (.cmd16, wordOf op arg)
  | .frameShort b => (.frameLen, b.setWidth 16)
  | .frameConfirm => (.frameLen, 0x0002)
  | .frameAck => (.frameLen, 0x0003)
  | .frameMalformed j => (.frameLen, 0x0004 ||| j.setWidth 16)
  | .frameTelegram n => (.frameLen, wordOf 0 n)
  | .telegramReadPure => (.telegramEmbedded, 0x0800)
  | .telegramWriteEmb b => (.telegramEmbedded, 0x0880 ||| b.setWidth 16)
  | .telegramResponseEmb b => (.telegramEmbedded, 0x0840 ||| b.setWidth 16)
  | .telegramUnknownEmb c => (.telegramEmbedded, wordOf 0x08 c)
  | .telegramReadExt => (.telegramExtended, 0x0000)
  | .telegramWriteExt b => (.telegramExtended, 0x0080 ||| b.setWidth 16)
  | .telegramResponseExt b => (.telegramExtended, 0x0040 ||| b.setWidth 16)
  | .telegramUnknownExt c => (.telegramExtended, wordOf 0 c)

/-! ## The opcode table as data (R92) -/

/-- A row of the opcode table: it matches the words `w` with `w &&& mask = pattern`. -/
structure Row where
  mnemonic : String
  format : Format
  pattern : Word
  mask : Word
deriving DecidableEq, Repr

/-- Whether a word matches a row (R92). -/
def Row.hits (r : Row) (w : Word) : Bool := w &&& r.mask == r.pattern

/-- How many bits of a mask are 1: a row with more of them wins (R92). -/
def maskBits (m : Word) : Nat := (List.range 16).countP (fun k => m.getLsbD k)

/-- Rows of the table (FEED to DECODE_GUESS). -/
def commandRowsDecode : List Row := [
  ⟨"FEED", .cmd16, 0x0100, 0xFFFF⟩,
  ⟨"DECODE_AS.DPT1", .cmd16, 0x0201, 0xFFFF⟩,
  ⟨"DECODE_AS.DPT2", .cmd16, 0x0202, 0xFFFF⟩,
  ⟨"DECODE_AS.DPT3", .cmd16, 0x0203, 0xFFFF⟩,
  ⟨"DECODE_AS.DPT4", .cmd16, 0x0204, 0xFFFF⟩,
  ⟨"DECODE_AS.DPT5", .cmd16, 0x0205, 0xFFFF⟩,
  ⟨"DECODE_AS.DPT6", .cmd16, 0x0206, 0xFFFF⟩,
  ⟨"DECODE_AS.DPT7", .cmd16, 0x0207, 0xFFFF⟩,
  ⟨"DECODE_AS.DPT8", .cmd16, 0x0208, 0xFFFF⟩,
  ⟨"DECODE_AS.DPT9", .cmd16, 0x0209, 0xFFFF⟩,
  ⟨"DECODE_AS.DPT10", .cmd16, 0x020A, 0xFFFF⟩,
  ⟨"DECODE_AS.DPT11", .cmd16, 0x020B, 0xFFFF⟩,
  ⟨"DECODE_AS.DPT12", .cmd16, 0x020C, 0xFFFF⟩,
  ⟨"DECODE_AS.DPT13", .cmd16, 0x020D, 0xFFFF⟩,
  ⟨"DECODE_AS.DPT14", .cmd16, 0x020E, 0xFFFF⟩,
  ⟨"DECODE_AS.DPT16", .cmd16, 0x0210, 0xFFFF⟩,
  ⟨"DECODE_AS.DPT232", .cmd16, 0x02E8, 0xFFFF⟩,
  ⟨"DECODE_AS.unknown", .cmd16, 0x0200, 0xFF00⟩,
  ⟨"DECODE_GUESS", .cmd16, 0x0300, 0xFF00⟩]

/-- Rows of the table (ENCODE.DPT1 to ILLEGAL). -/
def commandRowsRest : List Row := [
  ⟨"ENCODE.DPT1", .cmd16, 0x0401, 0xFFFF⟩,
  ⟨"ENCODE.DPT2", .cmd16, 0x0402, 0xFFFF⟩,
  ⟨"ENCODE.DPT3", .cmd16, 0x0403, 0xFFFF⟩,
  ⟨"ENCODE.DPT5", .cmd16, 0x0405, 0xFFFF⟩,
  ⟨"ENCODE.DPT7", .cmd16, 0x0407, 0xFFFF⟩,
  ⟨"ENCODE.DPT9", .cmd16, 0x0409, 0xFFFF⟩,
  ⟨"ENCODE.DPT10", .cmd16, 0x040A, 0xFFFF⟩,
  ⟨"ENCODE.DPT11", .cmd16, 0x040B, 0xFFFF⟩,
  ⟨"ENCODE.DPT14", .cmd16, 0x040E, 0xFFFF⟩,
  ⟨"ENCODE.DPT4", .cmd16, 0x0404, 0xFFFF⟩,
  ⟨"ENCODE.DPT6", .cmd16, 0x0406, 0xFFFF⟩,
  ⟨"ENCODE.DPT8", .cmd16, 0x0408, 0xFFFF⟩,
  ⟨"ENCODE.DPT12", .cmd16, 0x040C, 0xFFFF⟩,
  ⟨"ENCODE.DPT13", .cmd16, 0x040D, 0xFFFF⟩,
  ⟨"ENCODE.DPT16", .cmd16, 0x0410, 0xFFFF⟩,
  ⟨"ENCODE.DPT232", .cmd16, 0x04E8, 0xFFFF⟩,
  ⟨"ENCODE.unknown", .cmd16, 0x0400, 0xFF00⟩,
  ⟨"STATUS", .cmd16, 0x0500, 0xFFFF⟩,
  ⟨"RESET", .cmd16, 0x0600, 0xFFFF⟩,
  ⟨"ILLEGAL", .cmd16, 0x0000, 0x0000⟩]

/-- Rows of the table (FRAME.SHORT to TELEGRAM.UNKNOWN_EXT). -/
def frameRows : List Row := [
  ⟨"FRAME.SHORT", .frameLen, 0x0000, 0x00FE⟩,
  ⟨"FRAME.CONFIRM", .frameLen, 0x0002, 0x00FF⟩,
  ⟨"FRAME.ACK", .frameLen, 0x0003, 0x00FF⟩,
  ⟨"FRAME.MALFORMED", .frameLen, 0x0004, 0x00FC⟩,
  ⟨"FRAME.TELEGRAM", .frameLen, 0x0000, 0x0000⟩,
  ⟨"TELEGRAM.READ_PURE", .telegramEmbedded, 0x0800, 0xFFFF⟩,
  ⟨"TELEGRAM.WRITE_EMB", .telegramEmbedded, 0x0880, 0xFFFE⟩,
  ⟨"TELEGRAM.RESPONSE_EMB", .telegramEmbedded, 0x0840, 0xFFFE⟩,
  ⟨"TELEGRAM.UNKNOWN_EMB", .telegramEmbedded, 0x0800, 0xFF00⟩,
  ⟨"TELEGRAM.READ_EXT", .telegramExtended, 0x0000, 0x00FF⟩,
  ⟨"TELEGRAM.WRITE_EXT", .telegramExtended, 0x0080, 0x00FE⟩,
  ⟨"TELEGRAM.RESPONSE_EXT", .telegramExtended, 0x0040, 0x00FE⟩,
  ⟨"TELEGRAM.UNKNOWN_EXT", .telegramExtended, 0x0000, 0x0000⟩]

/-- The whole table. -/
def opcodeTable : List Row := commandRowsDecode ++ commandRowsRest ++ frameRows

/-- The mnemonic of an instruction's row. -/
def Instr.mnemonic : Instr → String
  | .feed => "FEED"
  | .decodeAsDpt1 => "DECODE_AS.DPT1"
  | .decodeAsDpt2 => "DECODE_AS.DPT2"
  | .decodeAsDpt3 => "DECODE_AS.DPT3"
  | .decodeAsDpt4 => "DECODE_AS.DPT4"
  | .decodeAsDpt5 => "DECODE_AS.DPT5"
  | .decodeAsDpt6 => "DECODE_AS.DPT6"
  | .decodeAsDpt7 => "DECODE_AS.DPT7"
  | .decodeAsDpt8 => "DECODE_AS.DPT8"
  | .decodeAsDpt9 => "DECODE_AS.DPT9"
  | .decodeAsDpt10 => "DECODE_AS.DPT10"
  | .decodeAsDpt11 => "DECODE_AS.DPT11"
  | .decodeAsDpt12 => "DECODE_AS.DPT12"
  | .decodeAsDpt13 => "DECODE_AS.DPT13"
  | .decodeAsDpt14 => "DECODE_AS.DPT14"
  | .decodeAsDpt16 => "DECODE_AS.DPT16"
  | .decodeAsDpt232 => "DECODE_AS.DPT232"
  | .decodeAsUnknown _ => "DECODE_AS.unknown"
  | .decodeGuess _ => "DECODE_GUESS"
  | .encodeDpt1 => "ENCODE.DPT1"
  | .encodeDpt2 => "ENCODE.DPT2"
  | .encodeDpt3 => "ENCODE.DPT3"
  | .encodeDpt5 => "ENCODE.DPT5"
  | .encodeDpt7 => "ENCODE.DPT7"
  | .encodeDpt9 => "ENCODE.DPT9"
  | .encodeDpt10 => "ENCODE.DPT10"
  | .encodeDpt11 => "ENCODE.DPT11"
  | .encodeDpt14 => "ENCODE.DPT14"
  | .encodeDpt4 => "ENCODE.DPT4"
  | .encodeDpt6 => "ENCODE.DPT6"
  | .encodeDpt8 => "ENCODE.DPT8"
  | .encodeDpt12 => "ENCODE.DPT12"
  | .encodeDpt13 => "ENCODE.DPT13"
  | .encodeDpt16 => "ENCODE.DPT16"
  | .encodeDpt232 => "ENCODE.DPT232"
  | .encodeUnknown _ => "ENCODE.unknown"
  | .status => "STATUS"
  | .reset => "RESET"
  | .illegal _ _ => "ILLEGAL"
  | .frameShort _ => "FRAME.SHORT"
  | .frameConfirm => "FRAME.CONFIRM"
  | .frameAck => "FRAME.ACK"
  | .frameMalformed _ => "FRAME.MALFORMED"
  | .frameTelegram _ => "FRAME.TELEGRAM"
  | .telegramReadPure => "TELEGRAM.READ_PURE"
  | .telegramWriteEmb _ => "TELEGRAM.WRITE_EMB"
  | .telegramResponseEmb _ => "TELEGRAM.RESPONSE_EMB"
  | .telegramUnknownEmb _ => "TELEGRAM.UNKNOWN_EMB"
  | .telegramReadExt => "TELEGRAM.READ_EXT"
  | .telegramWriteExt _ => "TELEGRAM.WRITE_EXT"
  | .telegramResponseExt _ => "TELEGRAM.RESPONSE_EXT"
  | .telegramUnknownExt _ => "TELEGRAM.UNKNOWN_EXT"

/-! ## The host's numbering of a table word

The table's formats share widths: a 16-bit word can be a command word or a telegram key, an 8-bit word a
length byte or a control byte. `decodeTableWord` has no format to go by, so it extends R92's own priority
to the rows of the same width: the row with more mask bits wins (log entry 9). -/

/-- The instruction of the table word `w` of `nbits` bits. -/
def decodeTableWord (nbits w : Nat) : Option Instr :=
  if nbits = 16 ∧ w < 2 ^ 16 then
    let v : Word := BitVec.ofNat 16 w
    if hiByte v = 0x08 then some (decodeEmbedded (loByte v)) else some (decodeCommand v)
  else if nbits = 8 ∧ w < 2 ^ 8 then
    let c : Byte := BitVec.ofNat 8 w
    if actionBytes.contains c then some (decodeExtended c) else some (decodeFrameLen c)
  else none

end Sys2Proof
end

