-- ==== Sys2Proof/Config.lean ====
section
/-! DEFINITION. What the spec leaves to the builder of the block and gives no value of: the address
formatter `fmt` and the text function `DPT4_HIGH` (`00_scope.md` R7). Both are constants with no body,
so every claim holds for every choice of them. The other two parameters are plain data and stand
elsewhere: `PENDING_CAP` in `State.pendingCap` (log entry 3), and the lookup `L` in each request
(log entry 4). -/

namespace Sys2Proof

/-- The address formatter `fmt(raw16, isGroup)` (R31): a function of its two arguments and nothing more
is known of it (D19). Log entry 5. -/
opaque Config.fmt (raw : Word) (isGroup : Bool) : String

/-- `DPT4_HIGH` (R32): the text a lone byte of 128..255 decodes to as DPT4 (D17). The spec uses it at
bytes of 128..255 only. Log entry 6. -/
opaque Config.dpt4High (b : Byte) : Text

end Sys2Proof
end

