-- ==== Sys2Proof/Machine/State.lean ====
section
/-! DEFINITION. The data of the machine: errors, values, events, operand and result records, the state,
its value at reset, and the two reason types of a step (`10_state.md`, `30_encoding.md` R90 and R91,
`00_scope.md` R12 and R13, `43_encode.md` R190). -/

namespace Sys2Proof.Machine

/-! ## Errors and actions -/

/-- The error codes (R90), in the order of their numbers 0 to 8. -/
inductive Err where
  /-- 0 `NONE`. -/
  | noError
  /-- 1 `LengthMismatch` (R231). -/
  | lengthMismatch
  /-- 2 `UnknownDatapointType` (R232). -/
  | unknownDatapointType
  /-- 3 `MalformedFrame` (R233). -/
  | malformedFrame
  /-- 4 `NotSupported` (R234). -/
  | notSupported
  /-- 5 `OutOfRange` (R235). -/
  | outOfRange
  /-- 6 `IllegalCommand` (R237). -/
  | illegalCommand
  /-- 7 `FaultActive` (R238). -/
  | faultActive
  /-- 8 `Overflow` (R239). -/
  | overflow
deriving DecidableEq, Repr

/-- The action of a telegram (R78); `unknown` is the spec's fourth, for the other 251 control bytes (D7). -/
inductive Action where
  | read | write | response | unknown
deriving DecidableEq, Repr

/-! ## The reference date (R33) -/

/-- A weekday of a reference date: 1 = Monday to 7 = Sunday. No other `W` exists (R33). -/
inductive Weekday where
  | monday | tuesday | wednesday | thursday | friday | saturday | sunday
deriving DecidableEq, Repr

/-- The reference date `REF = (D, W)` (R33): a day number and the weekday of that day. Log entry 11. -/
structure Ref where
  day : Int
  weekday : Weekday
deriving DecidableEq, Repr

/-! ## Values -/

/-- A decoded value (R13). -/
inductive Value where
  /-- An integer (DPT1, 2, 3, 5, 6, 7, 8, 12, 13). -/
  | int (i : Int)
  /-- A text (DPT4 below 128, DPT16). -/
  | text (codes : Text)
  /-- The text `DPT4_HIGH(b)` (DPT4 from 128). -/
  | opaque4 (b : Byte)
  /-- The exact rational `m * 2^e / 100` (DPT9). -/
  | busFloat (m : Int) (e : Nat)
  /-- A binary32 bit pattern (DPT14). -/
  | f32 (bits : Long)
  /-- Weekday, hour, minute, second, and the day resolved against `REF` (DPT10). -/
  | time (wd h mi s : Nat) (day : Int)
  /-- Day, month, year (DPT11). -/
  | date (d mo y : Nat)
  /-- Red, green, blue (DPT232). -/
  | rgb (r g b : Byte)
deriving DecidableEq, Repr

/-- The operand value of ENCODE: the shapes of R190. Log entry 15. -/
inductive Native where
  | bool (b : Bool)
  | int (i : Int)
  /-- An exact rational (D36). -/
  | num (q : Rat)
  /-- A NaN or an infinity. -/
  | nonFinite
  /-- `Tuple4(wd, h, mi, s)`. -/
  | tuple4 (wd h mi s : Int)
  /-- `Tuple3(d, mo, y)`. -/
  | tuple3 (d mo y : Int)
  | f32 (bits : Long)
deriving DecidableEq, Repr

/-- A Decoded Result `(err, dpt, value)` (R12). On an error `dpt` is the code that was tried (D29). -/
structure Decoded where
  err : Err
  dpt : Byte
  value : Option Value
deriving DecidableEq, Repr

/-- The result of an encode: an error code and the bytes (R190). -/
structure Encoded where
  err : Err
  bytes : Bytes
deriving DecidableEq, Repr

/-! ## Events (R91) -/

/-- An event of a FEED. Addresses are the raw 16-bit ones; the formatted ones follow from them (D19). -/
inductive Event where
  | evRead (src dst : Word)
  | evTelegram (act : Action) (src dst : Word) (payload : Bytes)
  | evAction (act : Action) (src dst : Word) (decoded : Decoded)
  | evDest (key : String) (act : Action) (src dst : Word) (decoded : Decoded)
deriving DecidableEq, Repr

/-! ## The command port and the result port -/

/-- An operand record (R37). -/
inductive Operand where
  /-- `Chunk(bytes, REF)`, for FEED. -/
  | chunk (bytes : Bytes) (ref : Ref)
  /-- `Bytes(bytes, REF)`, for DECODE_AS. -/
  | bytesRef (bytes : Bytes) (ref : Ref)
  /-- `Bytes(bytes)`, for DECODE_GUESS. -/
  | bytes (bytes : Bytes)
  /-- `Value(v)`, for ENCODE. -/
  | value (v : Native)
  /-- `None`, for STATUS and RESET. -/
  | nothing
deriving DecidableEq, Repr

/-- The address-to-type lookup `L` (R30) as a finite map: pairs of a formatted group address and a DPT
code. The first pair of a key counts. Log entry 4. -/
abbrev Lookup := List (String × Byte)

/-- One command as the host issues it: the command word, the operand record (R37), and the lookup that is
constant for the command (R30, R266). -/
structure Request where
  cmd : Word
  operand : Operand
  lookup : Lookup
deriving DecidableEq, Repr

/-- A result record (R38). -/
inductive Result where
  /-- FEED: `(err, events)`. -/
  | feed (err : Err) (events : List Event)
  /-- DECODE_AS and DECODE_GUESS: `(err, dpt, value)`. -/
  | decoded (d : Decoded)
  /-- ENCODE: `(err, bytes)`. -/
  | encoded (e : Encoded)
  /-- STATUS: `(NONE, STATUS, PENDING_LEN, FAULT_FRAME)`. -/
  | status (err : Err) (word : Long) (pendingLen : Nat) (faultFrame : Bytes)
  /-- RESET and every illegal command: `(err)` (log entry 12). -/
  | plain (err : Err)
deriving DecidableEq, Repr

/-! ## The state -/

/-- The state of one block instance with its two ports. The first five fields are the architectural state
(R20). The others are what a step needs beside it: the capacity parameter, the command port, the operands
of the command being executed, the event list that the current FEED builds, and the result port (R35,
R37, R38; log entries 1 to 4). -/
structure State where
  /-- `PENDING`, the accumulator (R21). -/
  pending : Bytes
  /-- `FAULT` (R26). -/
  fault : Bool
  /-- `FAULT_CAUSE` (R20). -/
  faultCause : BitVec 4
  /-- `FAULT_LEN` (R20). -/
  faultLen : BitVec 9
  /-- `FAULT_FRAME` (R29). -/
  faultFrame : Bytes
  /-- `PENDING_CAP` (R23): none is unbounded. Configuration: no command writes it. -/
  pendingCap : Option Nat
  /-- The commands the host has issued and the block has not taken yet, oldest first (R220). -/
  port : List Request
  /-- The operand record of the command being executed (R37). -/
  operand : Operand
  /-- The lookup `L` of the command being executed (R30). -/
  lookup : Lookup
  /-- `REF` of the FEED being executed (R267). -/
  ref : Ref
  /-- The events the current FEED has emitted so far (R11); empty between commands (R35). -/
  events : List Event
  /-- The result record of the last command (R38); none before the first. -/
  result : Option Result
deriving DecidableEq, Repr

/-- The state of a new block instance (R261): `PENDING` empty, `FAULT`, `FAULT_CAUSE` and `FAULT_LEN` 0,
`FAULT_FRAME` empty; `PENDING_CAP` unbounded, its default (R7). The ports and the operand fields are the
model's own and start empty (log entry 2). -/
def State.reset : State where
  pending := []
  fault := false
  faultCause := 0
  faultLen := 0
  faultFrame := []
  pendingCap := none
  port := []
  operand := .nothing
  lookup := []
  ref := ⟨0, .monday⟩
  events := []
  result := none

/-! ## Reasons a step can stop -/

/-- No step of this block stops the machine: every error of the spec is either a returned code or the
sticky fault record, and both are next states (R230). So the type has no constructor (log entry 8). -/
inductive Fault where
deriving DecidableEq, Repr

/-- Why an instruction has no meaning. -/
inductive Refusal where
  /-- The instruction of this name has no meaning in the model yet. Only an arm of exec raises it, and in
  this model none does. Safe: the run stops. -/
  | notModelled (mnemonic : String)
deriving DecidableEq, Repr

end Sys2Proof.Machine
end

