-- ==== Sys2Proof/Machine/Operands.lean ====
section
/-! DEFINITION. Operand forms: big-endian fields, sign extension and rounding, the fields and the payload
of a telegram, and what a decoded value or an event denotes (`00_scope.md` R8 to R10 and R13,
`20_memory.md` R51 to R55, `30_encoding.md` R77, R78 and R80). -/

namespace Sys2Proof.Machine

/-! ## Bytes and words -/

/-- `F[i]` (R9). No rule reads past the end (R9), so the value there, 0, reaches no result; log entry 10. -/
def byteAt (F : Bytes) (i : Nat) : Byte := F.getD i 0

/-- `u16be(F, i) = F[i]*256 + F[i+1]` (R9): the byte at the lower offset is the more significant (R52). -/
def u16be (F : Bytes) (i : Nat) : Word := wordOf (byteAt F i) (byteAt F (i + 1))

/-- `u32be(F, i) = F[i]*2^24 + F[i+1]*2^16 + F[i+2]*2^8 + F[i+3]` (R9, R52). -/
def u32be (F : Bytes) (i : Nat) : Long :=
  BitVec.ofNat 32 ((byteAt F i).toNat * 2 ^ 24 + (byteAt F (i + 1)).toNat * 2 ^ 16
    + (byteAt F (i + 2)).toNat * 2 ^ 8 + (byteAt F (i + 3)).toNat)

/-- Bits `hi` to `lo` of a byte as a number: `b[hi:lo]` (R8). -/
def bits (b : Byte) (hi lo : Nat) : Nat := (b.extractLsb' lo (hi + 1 - lo)).toNat

/-- `round_half_up(x) = floor(x + 1/2)` (R10): a tie goes toward +infinity (D11). -/
def roundHalfUp (x : Rat) : Int := (x + 1 / 2).floor

/-! ## Codes -/

/-- The number of an error code (R90). -/
def Err.code : Err → BitVec 4
  | .noError => 0
  | .lengthMismatch => 1
  | .unknownDatapointType => 2
  | .malformedFrame => 3
  | .notSupported => 4
  | .outOfRange => 5
  | .illegalCommand => 6
  | .faultActive => 7
  | .overflow => 8

/-- The number of an action (R78). -/
def Action.code : Action → Nat
  | .read => 0
  | .write => 1
  | .response => 2
  | .unknown => 3

/-- The event name of an action (R78). -/
def Action.eventName : Action → String
  | .read => "read"
  | .write => "write"
  | .response => "response"
  | .unknown => "unknown"

/-- `ACTION(c)`: the action a control byte names (R78, R108). -/
def actionOf (c : Byte) : Action :=
  if c = 0 then .read
  else if c = 128 ∨ c = 129 then .write
  else if c = 64 ∨ c = 65 then .response
  else .unknown

/-- The number of a weekday: 1 = Monday to 7 = Sunday (R33). -/
def Weekday.number : Weekday → Int
  | .monday => 1
  | .tuesday => 2
  | .wednesday => 3
  | .thursday => 4
  | .friday => 5
  | .saturday => 6
  | .sunday => 7

/-- The fixed payload size of a datapoint type, in bytes (R6, R80). -/
def dptSize : Dpt → Nat
  | .dpt1 | .dpt2 | .dpt3 | .dpt4 | .dpt5 | .dpt6 => 1
  | .dpt7 | .dpt8 | .dpt9 => 2
  | .dpt10 | .dpt11 | .dpt232 => 3
  | .dpt12 | .dpt13 | .dpt14 => 4
  | .dpt16 => 14

/-! ## The lookup (R30) -/

/-- `get(destAddressString)`. -/
def Lookup.get (L : Lookup) (key : String) : Option Byte :=
  match L with
  | [] => none
  | (k, d) :: rest => if k = key then some d else Lookup.get rest key

/-- `set(destAddressString, DPT)`: the host calls it between commands (R30). It replaces the key's code,
or adds the key. -/
def Lookup.set (L : Lookup) (key : String) (dpt : Byte) : Lookup :=
  match L with
  | [] => [(key, dpt)]
  | (k, d) :: rest => if k = key then (key, dpt) :: rest else (k, d) :: Lookup.set rest key dpt

/-! ## Frames and telegrams -/

/-- The total length `T` of a frame with length field `n` (R75). -/
def frameTotal (n : Byte) : Nat := n.toNat + 2

/-- The source physical address of a telegram (R107). -/
def sourceOf (F : Bytes) : Word := u16be F 4

/-- The destination group address of a telegram (R107). -/
def destinationOf (F : Bytes) : Word := u16be F 6

/-- The control byte of a telegram (R77). -/
def controlOf (F : Bytes) : Byte := byteAt F 9

/-- The payload of a telegram `F` with length field `n` (R109, R110): its last byte if `n ≤ 8`, else
everything from offset 10. -/
def payloadOf (n : Byte) (F : Bytes) : Bytes :=
  if n.toNat ≤ 8 then [byteAt F (frameTotal n - 1)] else (F.take (frameTotal n)).drop 10

/-! ## What values and events denote -/

/-- The rational number a bus float denotes (R13). -/
def Value.rational : Value → Option Rat
  | .busFloat m e => some ((m : Rat) * ((2 ^ e : Nat) : Rat) / 100)
  | .int _ | .text _ | .opaque4 _ | .f32 _ | .time _ _ _ _ _ | .date _ _ _ | .rgb _ _ _ => none

/-- The text a text value denotes: `DPT4_HIGH(b)` for `Opaque4(b)` (R13, R32). -/
def Value.textOf : Value → Option Text
  | .text codes => some codes
  | .opaque4 b => some (Config.dpt4High b)
  | .int _ | .busFloat _ _ | .f32 _ | .time _ _ _ _ _ | .date _ _ _ | .rgb _ _ _ => none

/-- The name of an event: its kind (R91). -/
def Event.name : Event → String
  | .evRead _ _ => "read"
  | .evTelegram _ _ _ _ => "telegram"
  | .evAction act _ _ _ => act.eventName
  | .evDest key _ _ _ _ => key

/-- The raw source and destination address of an event (R91). -/
def Event.addresses : Event → Word × Word
  | .evRead src dst | .evTelegram _ src dst _ | .evAction _ src dst _ | .evDest _ _ src dst _ => (src, dst)

/-- The formatted source and destination address of an event (R31, R91, R107). -/
def Event.formatted (ev : Event) : String × String :=
  (Config.fmt ev.addresses.1 false, Config.fmt ev.addresses.2 true)

end Sys2Proof.Machine
end

