-- ==== Sys2Proof/Machine/DatapointDecode.lean ====
section
/-! DEFINITION. Datapoint decode: one decoder for each recognised datapoint type, the entry point that is
told the type, and the one that guesses it (`41_decode.md` R140 to R158, `42_guess.md` R180 to R184).
Every function here is pure (R36). A decoder is reached only with a payload of its type's size. -/

namespace Sys2Proof.Machine

/-- DPT1 (R142): the byte minus 64, and minus 64 again if that exceeds 1. No wrap. -/
def decDpt1 (P : Bytes) : Value :=
  let r : Int := (byteAt P 0).toNat - 64
  .int (if r > 1 then r - 64 else r)

/-- DPT2 (R143): the low 2 bits. -/
def decDpt2 (P : Bytes) : Value := .int (byteAt P 0 &&& 0x03).toNat

/-- DPT3 (R144): the low 4 bits. -/
def decDpt3 (P : Bytes) : Value := .int (byteAt P 0 &&& 0x0F).toNat

/-- DPT4 (R145): one character up to 127, else the text `DPT4_HIGH(B)`. -/
def decDpt4 (P : Bytes) : Value :=
  let B := byteAt P 0
  if B.toNat ≤ 127 then .text [B.toNat] else .opaque4 B

/-- DPT5 (R146): the byte, unsigned. -/
def decDpt5 (P : Bytes) : Value := .int (byteAt P 0).toNat

/-- DPT6 (R147): the byte, signed. -/
def decDpt6 (P : Bytes) : Value := .int (byteAt P 0).toInt

/-- DPT7 (R148): 16 bits, big-endian, unsigned. -/
def decDpt7 (P : Bytes) : Value := .int (u16be P 0).toNat

/-- DPT8 (R149): 16 bits, big-endian, signed. -/
def decDpt8 (P : Bytes) : Value := .int (u16be P 0).toInt

/-- The sign, exponent and mantissa fields of a DPT9 word (R83), read as `(m, e)` (R150). -/
def busFloatOf (w : Word) : Value :=
  let s : Int := if w.getLsbD 15 then 1 else 0
  let e : Nat := (w.extractLsb' 11 4).toNat
  let M : Int := (w.extractLsb' 0 11).toNat
  .busFloat (M - 2048 * s) e

/-- DPT9 (R150): every word decodes by the formula (D38). -/
def decDpt9 (P : Bytes) : Value := busFloatOf (u16be P 0)

/-- The day nearest to `REF` whose weekday is `wd` (R152); `REF`'s own day if `wd` is 0. -/
def resolveDay (wd : Nat) (ref : Ref) : Int :=
  if wd = 0 then ref.day else ref.day + (((wd : Int) - ref.weekday.number + 3) % 7 - 3)

/-- DPT10 (R151, R152): no field is range-checked. -/
def decDpt10 (P : Bytes) (ref : Ref) : Value :=
  let wd := bits (byteAt P 0) 7 5
  .time wd (bits (byteAt P 0) 4 0) (bits (byteAt P 1) 5 0) (bits (byteAt P 2) 5 0) (resolveDay wd ref)

/-- DPT11 (R153): the year byte folds at 90. -/
def decDpt11 (P : Bytes) : Value :=
  let yy := (byteAt P 2).toNat
  .date (bits (byteAt P 0) 4 0) (bits (byteAt P 1) 3 0) (if yy < 90 then 2000 + yy else 1900 + yy)

/-- DPT12 (R154): 32 bits, big-endian, unsigned. -/
def decDpt12 (P : Bytes) : Value := .int (u32be P 0).toNat

/-- DPT13 (R155): 32 bits, big-endian, signed. -/
def decDpt13 (P : Bytes) : Value := .int (u32be P 0).toInt

/-- DPT14 (R156): the pattern, whatever it is. -/
def decDpt14 (P : Bytes) : Value := .f32 (u32be P 0)

/-- DPT16 (R157): 14 character codes, in offset order, nothing trimmed. -/
def decDpt16 (P : Bytes) : Value := .text ((List.range 14).map (fun i => (byteAt P i).toNat))

/-- DPT232 (R158): the wire order B, G, R is reversed. -/
def decDpt232 (P : Bytes) : Value := .rgb (byteAt P 2) (byteAt P 1) (byteAt P 0)

/-- `DEC_k(P, REF)`. -/
def decDpt (d : Dpt) (P : Bytes) (ref : Ref) : Value :=
  match d with
  | .dpt1 => decDpt1 P
  | .dpt2 => decDpt2 P
  | .dpt3 => decDpt3 P
  | .dpt4 => decDpt4 P
  | .dpt5 => decDpt5 P
  | .dpt6 => decDpt6 P
  | .dpt7 => decDpt7 P
  | .dpt8 => decDpt8 P
  | .dpt9 => decDpt9 P
  | .dpt10 => decDpt10 P ref
  | .dpt11 => decDpt11 P
  | .dpt12 => decDpt12 P
  | .dpt13 => decDpt13 P
  | .dpt14 => decDpt14 P
  | .dpt16 => decDpt16 P
  | .dpt232 => decDpt232 P

/-- A failed decode: the code that was tried and no value (R12, D29). -/
def decodeFailed (err : Err) (k : Byte) : Decoded := ⟨err, k, none⟩

/-- A decode as `d` with the payload checked against its size (R140). -/
def decodeSized (d : Dpt) (P : Bytes) (ref : Ref) : Decoded :=
  if P.length = dptSize d then ⟨.noError, d.code, some (decDpt d P ref)⟩
  else decodeFailed .lengthMismatch d.code

/-- `decodeAs(k, P, REF)` (R140): the unknown-code check comes first. -/
def decodeAs (k : Byte) (P : Bytes) (ref : Ref) : Decoded :=
  match Dpt.ofCode k with
  | none => decodeFailed .unknownDatapointType k
  | some d => decodeSized d P ref

/-- `FALLBACK14(P)` (R184): the first four bytes, whatever follows. -/
def fallback14 (P : Bytes) : Decoded :=
  if P.length < 4 then decodeFailed .lengthMismatch Dpt.dpt14.code
  else ⟨.noError, Dpt.dpt14.code, some (decDpt14 (P.take 4))⟩

/-- `GUESS(k, P, size)` (R180). -/
def guess (d : Dpt) (P : Bytes) (size : Nat) (value : Bytes → Value) : Decoded :=
  if P.length = size then ⟨.noError, d.code, some (value P)⟩ else decodeFailed .lengthMismatch d.code

/-- `decode(n, P)` (R180): the type is guessed from the length field (R181 to R184). -/
def decodeGuessed (n : Byte) (P : Bytes) : Decoded :=
  if n = 8 then guess .dpt1 P 1 decDpt1
  else if n = 9 then guess .dpt5 P 1 decDpt5
  else if n = 10 then guess .dpt9 P 2 decDpt9
  else fallback14 P

end Sys2Proof.Machine
end

