-- ==== Sys2Proof/Machine/DatapointEncode.lean ====
section
/-! DEFINITION. Datapoint encode: one encoder for each encodable datapoint type, and the entry point
(`43_encode.md` R190 to R199). Every function here is pure (R36). -/

namespace Sys2Proof.Machine

/-- An accepted value: its bytes. -/
def encoded (bytes : Bytes) : Encoded := ⟨.noError, bytes⟩

/-- A refused value: the error and no bytes (R190). -/
def encodeFailed (err : Err) : Encoded := ⟨err, []⟩

/-- The low 8 bits of an integer. -/
def byteOf (i : Int) : Byte := BitVec.ofInt 8 i

/-- A big-endian 16-bit word as two bytes (R195, R196). -/
def bytesOfWord (w : Word) : Bytes := [hiByte w, loByte w]

/-- A big-endian 32-bit pattern as four bytes (R199). -/
def bytesOfLong (w : Long) : Bytes :=
  [w.extractLsb' 24 8, w.extractLsb' 16 8, w.extractLsb' 8 8, w.extractLsb' 0 8]

/-- DPT1 (R191): the low bit of one byte. -/
def encDpt1 (b : Bool) : Encoded := encoded [if b then 0x01 else 0x00]

/-- A one-byte unsigned integer up to `max` (R192, R193, R194). -/
def encSmall (max : Int) (i : Int) : Encoded :=
  if 0 ≤ i ∧ i ≤ max then encoded [byteOf i] else encodeFailed .outOfRange

/-- DPT2 (R192). -/
def encDpt2 (i : Int) : Encoded := encSmall 3 i

/-- DPT3 (R193). -/
def encDpt3 (i : Int) : Encoded := encSmall 15 i

/-- DPT5 (R194). -/
def encDpt5 (i : Int) : Encoded := encSmall 255 i

/-- DPT7 (R195). -/
def encDpt7 (i : Int) : Encoded :=
  if 0 ≤ i ∧ i ≤ 65535 then encoded (bytesOfWord (BitVec.ofInt 16 i)) else encodeFailed .outOfRange

/-- The mantissa of `q` at exponent `e`: `round_half_up(100 q / 2^e)` (R196). -/
def mantissaAt (q : Rat) (e : Nat) : Int := roundHalfUp (100 * q / ((2 ^ e : Nat) : Rat))

/-- Whether a mantissa fits: the range the decoder can return (R196, `90_conflicts.md` C5). -/
def mantissaFits (m : Int) : Bool := decide (-2048 ≤ m) && decide (m ≤ 2047)

/-- The DPT9 word of a mantissa that fits and an exponent of 0..15 (R83, R196). -/
def busFloatWord (m : Int) (e : Nat) : Word :=
  let s : Word := if m < 0 then 1 else 0
  (s <<< 15) ||| (BitVec.ofNat 16 e <<< 11) ||| (BitVec.ofInt 16 m &&& 0x7FF)

/-- DPT9 of a finite value (R196): the smallest exponent of 0..15 whose rounded mantissa fits. -/
def encDpt9 (q : Rat) : Encoded :=
  match (List.range 16).find? (fun e => mantissaFits (mantissaAt q e)) with
  | some e => encoded (bytesOfWord (busFloatWord (mantissaAt q e) e))
  | none => encodeFailed .outOfRange

/-- DPT10 (R197). -/
def encDpt10 (wd h mi s : Int) : Encoded :=
  if 0 ≤ wd ∧ wd ≤ 7 ∧ 0 ≤ h ∧ h ≤ 23 ∧ 0 ≤ mi ∧ mi ≤ 59 ∧ 0 ≤ s ∧ s ≤ 59 then
    encoded [(byteOf wd <<< 5) ||| byteOf h, byteOf mi, byteOf s]
  else encodeFailed .outOfRange

/-- DPT11 (R198): no century folding on encode. -/
def encDpt11 (d mo y : Int) : Encoded :=
  if 1 ≤ d ∧ d ≤ 31 ∧ 1 ≤ mo ∧ mo ≤ 12 ∧ 0 ≤ y ∧ y ≤ 99 then encoded [byteOf d, byteOf mo, byteOf y]
  else encodeFailed .outOfRange

/-- DPT14 (R199): the pattern, whatever it is. -/
def encDpt14 (w : Long) : Encoded := encoded (bytesOfLong w)

/-- The encoder of an encodable type (R190); none for a decode-only type (R3, R234). A value of the wrong
shape is `IllegalCommand` (R190). -/
def encoderOf : Dpt → Option (Native → Encoded)
  | .dpt1 => some (fun v => match v with | .bool b => encDpt1 b | _ => encodeFailed .illegalCommand)
  | .dpt2 => some (fun v => match v with | .int i => encDpt2 i | _ => encodeFailed .illegalCommand)
  | .dpt3 => some (fun v => match v with | .int i => encDpt3 i | _ => encodeFailed .illegalCommand)
  | .dpt5 => some (fun v => match v with | .int i => encDpt5 i | _ => encodeFailed .illegalCommand)
  | .dpt7 => some (fun v => match v with | .int i => encDpt7 i | _ => encodeFailed .illegalCommand)
  | .dpt9 => some (fun v => match v with
      | .num q => encDpt9 q
      | .nonFinite => encodeFailed .outOfRange
      | _ => encodeFailed .illegalCommand)
  | .dpt10 => some (fun v => match v with
      | .tuple4 wd h mi s => encDpt10 wd h mi s
      | _ => encodeFailed .illegalCommand)
  | .dpt11 => some (fun v => match v with
      | .tuple3 d mo y => encDpt11 d mo y
      | _ => encodeFailed .illegalCommand)
  | .dpt14 => some (fun v => match v with | .f32 w => encDpt14 w | _ => encodeFailed .illegalCommand)
  | .dpt4 | .dpt6 | .dpt8 | .dpt12 | .dpt13 | .dpt16 | .dpt232 => none

/-- `encode(k, v)` (R190): the NotSupported check comes before the shape check (R240). -/
def encodeAs (k : Byte) (v : Native) : Encoded :=
  match (Dpt.ofCode k).bind encoderOf with
  | some enc => enc v
  | none => encodeFailed .notSupported

end Sys2Proof.Machine
end

