-- ==== Sys2Proof/Machine/Flags.lean ====
section
/-! DEFINITION. The one flag of the block, `FAULT`, with the rest of the fault record and the `STATUS`
word that shows it (`10_state.md` R26 to R29, `44_system.md` R222). -/

namespace Sys2Proof.Machine

/-- The 32-bit `STATUS` word (R27, R222): bit 0 `FAULT`, bits 7:4 `FAULT_CAUSE`, bits 16:8 `FAULT_LEN`,
every other bit 0. -/
def statusWord (s : State) : Long :=
  (BitVec.ofBool s.fault).setWidth 32 ||| (s.faultCause.setWidth 32 <<< 4)
    ||| (s.faultLen.setWidth 32 <<< 8)

/-- `PENDING_LEN` (R28). -/
def pendingLen (s : State) : Nat := s.pending.length

/-- Set the whole fault record for a frame `F` of `T` bytes, as one unit (R27, R106). -/
def State.setFaultRecord (s : State) (T : Nat) (F : Bytes) : State :=
  { s with fault := true, faultCause := Err.malformedFrame.code, faultLen := BitVec.ofNat 9 T, faultFrame := F }

/-- Clear the whole fault record, as one unit (R27, R223). -/
def State.clearFaultRecord (s : State) : State :=
  { s with fault := false, faultCause := 0, faultLen := 0, faultFrame := [] }

end Sys2Proof.Machine
end

