-- ==== Sys2Proof/Machine/Ops.lean ====
section
/-! DEFINITION. The shared operations: reading and trimming the accumulator, emitting events, answering a
command, raising the MalformedFrame fault and leaving it (`00_scope.md` R11, `40_frame_splitter.md` R100
to R106, `60_exceptions.md` R236 and R242). -/

namespace Sys2Proof.Machine

/-! ## The result port -/

/-- End a command with its result record (R38). -/
def State.reply (s : State) (r : Result) : State := { s with result := some r }

/-- An illegal command: the error code and no other change (R221). -/
def illegalCommand (s : State) : State := s.reply (.plain .illegalCommand)

/-! ## The accumulator -/

/-- `PENDING <- bs` (R11). -/
def State.setPending (s : State) (bs : Bytes) : State := { s with pending := bs }

/-- The length field of the frame at the front of `bs`: byte 1 (R75). None with fewer than 2 bytes. -/
def lengthField : Bytes → Option Byte
  | _ :: n :: _ => some n
  | _ => none

/-- The length field of the frame at the front of `bs` when all its `T` bytes are there (R101). -/
def completeFrame (bs : Bytes) : Option Byte :=
  match lengthField bs with
  | some n => if frameTotal n ≤ bs.length then some n else none
  | none => none

/-- Take `T` bytes off the front of `PENDING` (R102); none when they are not all there (R101). -/
def takeFrame (T : Nat) (s : State) : Option (Bytes × State) :=
  if T ≤ s.pending.length then some (s.pending.take T, s.setPending (s.pending.drop T)) else none

/-! ## Events -/

/-- `emit`: append events to the list the current FEED returns (R11). -/
def State.emit (s : State) (evs : List Event) : State := { s with events := s.events ++ evs }

/-! ## The fault: entry and return -/

/-- Raise MalformedFrame for the frame `F` of `T` bytes, already consumed (R106, R236): the record is set,
nothing else is saved, and there is no vector and no mode change. That the FEED ends is FEED's own part
(`feedDrain`). -/
def raiseMalformedFrame (T : Nat) (F : Bytes) (s : State) : State := s.setFaultRecord T F

/-- The one way out of the fault (R242): RESET empties the accumulator and clears the record (R223). It is
also the state of a new instance (R260). -/
def resetBlock (s : State) : State := (s.setPending []).clearFaultRecord

/-! ## Starting and ending a FEED -/

/-- Append the chunk, take `REF`, and start with no event (R100). -/
def beginFeed (chunk : Bytes) (ref : Ref) (s : State) : State :=
  { s with pending := s.pending ++ chunk, ref := ref, events := [] }

/-- Answer with the events of this FEED and keep no copy of them (R35): MalformedFrame if the drain raised
the fault, else NONE (R100). -/
def endFeed (s : State) : State :=
  { s with events := [], result := some (.feed (if s.fault then .malformedFrame else .noError) s.events) }

/-- Whether `len` bytes fit in the accumulator (R23): always, when the capacity is unbounded. -/
def fitsPending (cap : Option Nat) (len : Nat) : Bool :=
  match cap with
  | none => true
  | some c => decide (len ≤ c)

/-- Take a request from the command port: its operand record and its lookup are those of the command being
executed (R37, R266), and `rest` is still to come (R220). -/
def latchRequest (r : Request) (rest : List Request) (s : State) : State :=
  { s with port := rest, operand := r.operand, lookup := r.lookup }

end Sys2Proof.Machine
end

