-- ==== Sys2Proof/Machine/Codec.lean ====
section
/-! DEFINITION. The codec commands: DECODE_AS, DECODE_GUESS and ENCODE (`41_decode.md` R141, `42_guess.md`
R185, `43_encode.md` R200). They read their operand record and write nothing but the result record, and
they run while `FAULT = 1` (R36, D24). -/

namespace Sys2Proof.Machine

/-- DECODE_AS with code `k` (R141). Any other operand shape is an illegal command (R73). -/
def decodeAsCommand (k : Byte) (s : State) : State :=
  match s.operand with
  | .bytesRef P ref => s.reply (.decoded (decodeAs k P ref))
  | .chunk _ _ | .bytes _ | .value _ | .nothing => illegalCommand s

/-- DECODE_GUESS with length field `n` (R185). Any other operand shape is an illegal command (R73). -/
def decodeGuessCommand (n : Byte) (s : State) : State :=
  match s.operand with
  | .bytes P => s.reply (.decoded (decodeGuessed n P))
  | .chunk _ _ | .bytesRef _ _ | .value _ | .nothing => illegalCommand s

/-- ENCODE with code `k` (R200). Any other operand shape is an illegal command (R73). -/
def encodeCommand (k : Byte) (s : State) : State :=
  match s.operand with
  | .value v => s.reply (.encoded (encodeAs k v))
  | .chunk _ _ | .bytesRef _ _ | .bytes _ | .nothing => illegalCommand s

/-! ## DECODE_AS -/

/-- `DECODE_AS.DPT1` (R142, R141). -/
def execDecodeAsDpt1 (s : State) : Host.Outcome State Fault Refusal :=
  .next (decodeAsCommand Dpt.dpt1.code s)

/-- `DECODE_AS.DPT2` (R143, R141). -/
def execDecodeAsDpt2 (s : State) : Host.Outcome State Fault Refusal :=
  .next (decodeAsCommand Dpt.dpt2.code s)

/-- `DECODE_AS.DPT3` (R144, R141). -/
def execDecodeAsDpt3 (s : State) : Host.Outcome State Fault Refusal :=
  .next (decodeAsCommand Dpt.dpt3.code s)

/-- `DECODE_AS.DPT4` (R145, R141). -/
def execDecodeAsDpt4 (s : State) : Host.Outcome State Fault Refusal :=
  .next (decodeAsCommand Dpt.dpt4.code s)

/-- `DECODE_AS.DPT5` (R146, R141). -/
def execDecodeAsDpt5 (s : State) : Host.Outcome State Fault Refusal :=
  .next (decodeAsCommand Dpt.dpt5.code s)

/-- `DECODE_AS.DPT6` (R147, R141). -/
def execDecodeAsDpt6 (s : State) : Host.Outcome State Fault Refusal :=
  .next (decodeAsCommand Dpt.dpt6.code s)

/-- `DECODE_AS.DPT7` (R148, R141). -/
def execDecodeAsDpt7 (s : State) : Host.Outcome State Fault Refusal :=
  .next (decodeAsCommand Dpt.dpt7.code s)

/-- `DECODE_AS.DPT8` (R149, R141). -/
def execDecodeAsDpt8 (s : State) : Host.Outcome State Fault Refusal :=
  .next (decodeAsCommand Dpt.dpt8.code s)

/-- `DECODE_AS.DPT9` (R150, R141). -/
def execDecodeAsDpt9 (s : State) : Host.Outcome State Fault Refusal :=
  .next (decodeAsCommand Dpt.dpt9.code s)

/-- `DECODE_AS.DPT10` (R151, R141). -/
def execDecodeAsDpt10 (s : State) : Host.Outcome State Fault Refusal :=
  .next (decodeAsCommand Dpt.dpt10.code s)

/-- `DECODE_AS.DPT11` (R153, R141). -/
def execDecodeAsDpt11 (s : State) : Host.Outcome State Fault Refusal :=
  .next (decodeAsCommand Dpt.dpt11.code s)

/-- `DECODE_AS.DPT12` (R154, R141). -/
def execDecodeAsDpt12 (s : State) : Host.Outcome State Fault Refusal :=
  .next (decodeAsCommand Dpt.dpt12.code s)

/-- `DECODE_AS.DPT13` (R155, R141). -/
def execDecodeAsDpt13 (s : State) : Host.Outcome State Fault Refusal :=
  .next (decodeAsCommand Dpt.dpt13.code s)

/-- `DECODE_AS.DPT14` (R156, R141). -/
def execDecodeAsDpt14 (s : State) : Host.Outcome State Fault Refusal :=
  .next (decodeAsCommand Dpt.dpt14.code s)

/-- `DECODE_AS.DPT16` (R157, R141). -/
def execDecodeAsDpt16 (s : State) : Host.Outcome State Fault Refusal :=
  .next (decodeAsCommand Dpt.dpt16.code s)

/-- `DECODE_AS.DPT232` (R158, R141). -/
def execDecodeAsDpt232 (s : State) : Host.Outcome State Fault Refusal :=
  .next (decodeAsCommand Dpt.dpt232.code s)

/-- `DECODE_AS.unknown` (R140): the code names no type. -/
def execDecodeAsUnknown (k : Byte) (s : State) : Host.Outcome State Fault Refusal :=
  .next (decodeAsCommand k s)

/-! ## DECODE_GUESS -/

/-- `DECODE_GUESS` (R185). -/
def execDecodeGuess (n : Byte) (s : State) : Host.Outcome State Fault Refusal :=
  .next (decodeGuessCommand n s)

/-! ## ENCODE -/

/-- `ENCODE.DPT1` (R191, R200). -/
def execEncodeDpt1 (s : State) : Host.Outcome State Fault Refusal :=
  .next (encodeCommand Dpt.dpt1.code s)

/-- `ENCODE.DPT2` (R192, R200). -/
def execEncodeDpt2 (s : State) : Host.Outcome State Fault Refusal :=
  .next (encodeCommand Dpt.dpt2.code s)

/-- `ENCODE.DPT3` (R193, R200). -/
def execEncodeDpt3 (s : State) : Host.Outcome State Fault Refusal :=
  .next (encodeCommand Dpt.dpt3.code s)

/-- `ENCODE.DPT5` (R194, R200). -/
def execEncodeDpt5 (s : State) : Host.Outcome State Fault Refusal :=
  .next (encodeCommand Dpt.dpt5.code s)

/-- `ENCODE.DPT7` (R195, R200). -/
def execEncodeDpt7 (s : State) : Host.Outcome State Fault Refusal :=
  .next (encodeCommand Dpt.dpt7.code s)

/-- `ENCODE.DPT9` (R196, R200). -/
def execEncodeDpt9 (s : State) : Host.Outcome State Fault Refusal :=
  .next (encodeCommand Dpt.dpt9.code s)

/-- `ENCODE.DPT10` (R197, R200). -/
def execEncodeDpt10 (s : State) : Host.Outcome State Fault Refusal :=
  .next (encodeCommand Dpt.dpt10.code s)

/-- `ENCODE.DPT11` (R198, R200). -/
def execEncodeDpt11 (s : State) : Host.Outcome State Fault Refusal :=
  .next (encodeCommand Dpt.dpt11.code s)

/-- `ENCODE.DPT14` (R199, R200). -/
def execEncodeDpt14 (s : State) : Host.Outcome State Fault Refusal :=
  .next (encodeCommand Dpt.dpt14.code s)

/-- `ENCODE.DPT4` (R190, R200). -/
def execEncodeDpt4 (s : State) : Host.Outcome State Fault Refusal :=
  .next (encodeCommand Dpt.dpt4.code s)

/-- `ENCODE.DPT6` (R190, R200). -/
def execEncodeDpt6 (s : State) : Host.Outcome State Fault Refusal :=
  .next (encodeCommand Dpt.dpt6.code s)

/-- `ENCODE.DPT8` (R190, R200). -/
def execEncodeDpt8 (s : State) : Host.Outcome State Fault Refusal :=
  .next (encodeCommand Dpt.dpt8.code s)

/-- `ENCODE.DPT12` (R190, R200). -/
def execEncodeDpt12 (s : State) : Host.Outcome State Fault Refusal :=
  .next (encodeCommand Dpt.dpt12.code s)

/-- `ENCODE.DPT13` (R190, R200). -/
def execEncodeDpt13 (s : State) : Host.Outcome State Fault Refusal :=
  .next (encodeCommand Dpt.dpt13.code s)

/-- `ENCODE.DPT16` (R190, R200). -/
def execEncodeDpt16 (s : State) : Host.Outcome State Fault Refusal :=
  .next (encodeCommand Dpt.dpt16.code s)

/-- `ENCODE.DPT232` (R190, R200). -/
def execEncodeDpt232 (s : State) : Host.Outcome State Fault Refusal :=
  .next (encodeCommand Dpt.dpt232.code s)

/-- `ENCODE.unknown` (R190): NotSupported, for a value of any shape. -/
def execEncodeUnknown (k : Byte) (s : State) : Host.Outcome State Fault Refusal :=
  .next (encodeCommand k s)

end Sys2Proof.Machine
end

