-- ==== Sys2Proof/Machine/Control.lean ====
section
/-! DEFINITION. The control commands: STATUS, RESET and illegal command words (`44_system.md` R221 to
R223). -/

namespace Sys2Proof.Machine

/-- STATUS (R222): the status word, the length of the accumulator and the faulting frame. No change. -/
def statusCommand (s : State) : State :=
  match s.operand with
  | .nothing => s.reply (.status .noError (statusWord s) (pendingLen s) s.faultFrame)
  | .chunk _ _ | .bytesRef _ _ | .bytes _ | .value _ => illegalCommand s

/-- RESET (R223): the block is as new. Configuration and ports are not touched (R261). -/
def resetCommand (s : State) : State :=
  match s.operand with
  | .nothing => (resetBlock s).reply (.plain .noError)
  | .chunk _ _ | .bytesRef _ _ | .bytes _ | .value _ => illegalCommand s

/-- `STATUS` (R222). -/
def execStatus (s : State) : Host.Outcome State Fault Refusal := .next (statusCommand s)

/-- `RESET` (R223). -/
def execReset (s : State) : Host.Outcome State Fault Refusal := .next (resetCommand s)

/-- `ILLEGAL` (R221): whatever the word and the operands, the error code and no change. -/
def execIllegal (_op _arg : Byte) (s : State) : Host.Outcome State Fault Refusal := .next (illegalCommand s)

end Sys2Proof.Machine
end

