-- ==== Sys2Proof/Machine/Telegram.lean ====
section
/-! DEFINITION. Telegrams: the telegram rows of the opcode table. Each row is what one pass of FEED's drain
loop does to a telegram of its kind (`40_frame_splitter.md` R107 to R115). The frame is consumed (R102) and
its events are emitted. When the frame is not all there, nothing is consumed (R101; log entry 7). -/

namespace Sys2Proof.Machine

/-- Type selection (R112): the lookup's code wins, and without one the length field decides. -/
def decodeSelected (L : Lookup) (dst : Word) (n : Byte) (P : Bytes) (ref : Ref) : Decoded :=
  match Lookup.get L (Config.fmt dst true) with
  | some k => decodeAs k P ref
  | none => decodeGuessed n P

/-- The three events of the decode path (R114), for a telegram `F` with length field `n`. -/
def decodePathEvents (L : Lookup) (ref : Ref) (n : Byte) (act : Action) (F : Bytes) : List Event :=
  let src := sourceOf F
  let dst := destinationOf F
  let P := payloadOf n F
  let R := decodeSelected L dst n P ref
  [.evTelegram act src dst P, .evAction act src dst R, .evDest (Config.fmt dst true) act src dst R]

/-- The event of a pure read (R113). The lookup is not asked (R112). -/
def pureReadEvents (F : Bytes) : List Event := [.evRead (sourceOf F) (destinationOf F)]

/-- Consume the frame of length field `n` and emit the events it gives. -/
def consumeTelegram (n : Byte) (eventsOf : Bytes → List Event) (s : State) : State :=
  match takeFrame (frameTotal n) s with
  | some (F, s') => s'.emit (eventsOf F)
  | none => s

/-- A telegram with an embedded payload, `n = 8` (R109), on the decode path. -/
def embeddedTelegram (act : Action) (s : State) : State :=
  consumeTelegram 8 (decodePathEvents s.lookup s.ref 8 act) s

/-- A telegram with an extended payload, `n ≥ 9` (R109), on the decode path. Its rows do not tell `n`
(R92), so `n` is read from the frame. A frame with a smaller `n` is no extended telegram, and nothing
happens (log entry 7). -/
def extendedTelegram (act : Action) (s : State) : State :=
  match lengthField s.pending with
  | some n => if 9 ≤ n.toNat then consumeTelegram n (decodePathEvents s.lookup s.ref n act) s else s
  | none => s

/-! ## Embedded payload -/

/-- A pure read (R111, R113). -/
def runTelegramReadPure (s : State) : State := consumeTelegram 8 pureReadEvents s

/-- A write with an embedded payload (R114); `b` is the low bit of the control byte. -/
def runTelegramWriteEmb (_b : BitVec 1) (s : State) : State := embeddedTelegram .write s

/-- A response with an embedded payload (R114). -/
def runTelegramResponseEmb (_b : BitVec 1) (s : State) : State := embeddedTelegram .response s

/-- A telegram of no named action with an embedded payload (R114, D7). -/
def runTelegramUnknownEmb (_c : Byte) (s : State) : State := embeddedTelegram .unknown s

/-! ## Extended payload -/

/-- A read with an extended payload: not a pure read (R111, R114). -/
def runTelegramReadExt (s : State) : State := extendedTelegram .read s

/-- A write with an extended payload (R114). -/
def runTelegramWriteExt (_b : BitVec 1) (s : State) : State := extendedTelegram .write s

/-- A response with an extended payload (R114). -/
def runTelegramResponseExt (_b : BitVec 1) (s : State) : State := extendedTelegram .response s

/-- A telegram of no named action with an extended payload (R114, D7). -/
def runTelegramUnknownExt (_c : Byte) (s : State) : State := extendedTelegram .unknown s

/-! ## The row of a telegram -/

/-- The telegram row of length field `n` and control byte `c`: embedded for `n ≤ 8`, else extended (R109). -/
def telegramRow (n c : Byte) : Instr := if n.toNat ≤ 8 then decodeEmbedded c else decodeExtended c

/-- Run a telegram row. `telegramRow` gives no other instruction. -/
def runTelegramRow (i : Instr) (s : State) : State :=
  match i with
  | .telegramReadPure => runTelegramReadPure s
  | .telegramWriteEmb b => runTelegramWriteEmb b s
  | .telegramResponseEmb b => runTelegramResponseEmb b s
  | .telegramUnknownEmb c => runTelegramUnknownEmb c s
  | .telegramReadExt => runTelegramReadExt s
  | .telegramWriteExt b => runTelegramWriteExt b s
  | .telegramResponseExt b => runTelegramResponseExt b s
  | .telegramUnknownExt c => runTelegramUnknownExt c s
  | _ => s

/-! ## The meanings of the rows -/

/-- `TELEGRAM.READ_PURE` (R113). -/
def execTelegramReadPure (s : State) : Host.Outcome State Fault Refusal := .next (runTelegramReadPure s)

/-- `TELEGRAM.WRITE_EMB` (R114). -/
def execTelegramWriteEmb (b : BitVec 1) (s : State) : Host.Outcome State Fault Refusal :=
  .next (runTelegramWriteEmb b s)

/-- `TELEGRAM.RESPONSE_EMB` (R114). -/
def execTelegramResponseEmb (b : BitVec 1) (s : State) : Host.Outcome State Fault Refusal :=
  .next (runTelegramResponseEmb b s)

/-- `TELEGRAM.UNKNOWN_EMB` (R114). -/
def execTelegramUnknownEmb (c : Byte) (s : State) : Host.Outcome State Fault Refusal :=
  .next (runTelegramUnknownEmb c s)

/-- `TELEGRAM.READ_EXT` (R114). -/
def execTelegramReadExt (s : State) : Host.Outcome State Fault Refusal := .next (runTelegramReadExt s)

/-- `TELEGRAM.WRITE_EXT` (R114). -/
def execTelegramWriteExt (b : BitVec 1) (s : State) : Host.Outcome State Fault Refusal :=
  .next (runTelegramWriteExt b s)

/-- `TELEGRAM.RESPONSE_EXT` (R114). -/
def execTelegramResponseExt (b : BitVec 1) (s : State) : Host.Outcome State Fault Refusal :=
  .next (runTelegramResponseExt b s)

/-- `TELEGRAM.UNKNOWN_EXT` (R114). -/
def execTelegramUnknownExt (c : Byte) (s : State) : Host.Outcome State Fault Refusal :=
  .next (runTelegramUnknownExt c s)

end Sys2Proof.Machine
end

