-- ==== Sys2Proof/Machine/Frame.lean ====
section
/-! DEFINITION. Frames: the frame rows of the opcode table. Each row is what one pass of FEED's drain loop
does to a frame of its kind (`40_frame_splitter.md` R101 to R106, `30_encoding.md` R76). -/

namespace Sys2Proof.Machine

/-- Consume a frame of `T` bytes with no event and no other change (R105). -/
def consumeSilently (T : Nat) (s : State) : State :=
  match takeFrame T s with
  | some (_, s') => s'
  | none => s

/-- A short frame, `T` of 2 or 3 (R105, D6). -/
def runFrameShort (b : BitVec 1) (s : State) : State := consumeSilently (b.toNat + 2) s

/-- A Confirm frame, `T = 4` (R105). -/
def runFrameConfirm (s : State) : State := consumeSilently 4 s

/-- An Acknowledge/open-socket frame, `T = 5` (R105). -/
def runFrameAck (s : State) : State := consumeSilently 5 s

/-- A frame of `T` in 6..9: consumed, no event, and the fault is raised (R106). -/
def runFrameMalformed (j : BitVec 2) (s : State) : State :=
  let T := j.toNat + 6
  match takeFrame T s with
  | some (F, s') => raiseMalformedFrame T F s'
  | none => s

/-- A telegram, `T ≥ 10` (R107): its control byte tells which telegram row it is (R92, R108, R109). -/
def runFrameTelegram (n : Byte) (s : State) : State :=
  if frameTotal n ≤ s.pending.length then runTelegramRow (telegramRow n (controlOf s.pending)) s else s

/-- Run a frame row. `decodeFrameLen` gives no other instruction. -/
def runFrameRow (i : Instr) (s : State) : State :=
  match i with
  | .frameShort b => runFrameShort b s
  | .frameConfirm => runFrameConfirm s
  | .frameAck => runFrameAck s
  | .frameMalformed j => runFrameMalformed j s
  | .frameTelegram n => runFrameTelegram n s
  | _ => s

/-- One pass of the drain loop over a frame with length field `n` (R100, R103). -/
def framePass (n : Byte) (s : State) : State := runFrameRow (decodeFrameLen n) s

/-! ## The meanings of the rows -/

/-- `FRAME.SHORT` (R105). -/
def execFrameShort (b : BitVec 1) (s : State) : Host.Outcome State Fault Refusal := .next (runFrameShort b s)

/-- `FRAME.CONFIRM` (R105). -/
def execFrameConfirm (s : State) : Host.Outcome State Fault Refusal := .next (runFrameConfirm s)

/-- `FRAME.ACK` (R105). -/
def execFrameAck (s : State) : Host.Outcome State Fault Refusal := .next (runFrameAck s)

/-- `FRAME.MALFORMED` (R106). The fault it raises is a next state (R236). -/
def execFrameMalformed (j : BitVec 2) (s : State) : Host.Outcome State Fault Refusal :=
  .next (runFrameMalformed j s)

/-- `FRAME.TELEGRAM` (R107). -/
def execFrameTelegram (n : Byte) (s : State) : Host.Outcome State Fault Refusal := .next (runFrameTelegram n s)

end Sys2Proof.Machine
end

