-- ==== Sys2Proof/Machine/Feed.lean ====
section
/-! DEFINITION. FEED: append a chunk and drain the accumulator (`40_frame_splitter.md` R100 to R104). One
FEED is one step (R58). -/

namespace Sys2Proof.Machine

/-- The drain loop, at most `passes` times (R100): it stops when no complete frame is left (R101) and when
a frame raised the fault (R106). -/
def drainLoop : Nat → State → State
  | 0, s => s
  | passes + 1, s =>
    match completeFrame s.pending with
    | none => s
    | some n =>
      let s' := framePass n s
      if s'.fault then s' else drainLoop passes s'

/-- Drain to exhaustion. A pass consumes at least 2 bytes, so half the length bounds the passes (R104). -/
def feedDrain (s : State) : State := drainLoop (s.pending.length / 2) s

/-- FEED of a chunk (R100): FaultActive first, then Overflow (R240), and neither changes the block. -/
def feedChunk (chunk : Bytes) (ref : Ref) (s : State) : State :=
  if s.fault then s.reply (.feed .faultActive [])
  else if fitsPending s.pendingCap (s.pending.length + chunk.length) then
    endFeed (feedDrain (beginFeed chunk ref s))
  else s.reply (.feed .overflow [])

/-- FEED with the operand record at the port; another shape is an illegal command (R73). -/
def feedCommand (s : State) : State :=
  match s.operand with
  | .chunk bytes ref => feedChunk bytes ref s
  | .bytesRef _ _ | .bytes _ | .value _ | .nothing => illegalCommand s

/-- `FEED` (R100). -/
def execFeed (s : State) : Host.Outcome State Fault Refusal := .next (feedCommand s)

end Sys2Proof.Machine
end

