-- ==== Sys2Proof/Machine/Dispatch.lean ====
section
/-! DEFINITION. The meaning of each instruction: one arm for each row of the opcode table. -/

namespace Sys2Proof.Machine

def exec (i : Instr) (s : State) : Host.Outcome State Fault Refusal :=
  match i with
  | .feed => Sys2Proof.Machine.execFeed s
  | .decodeAsDpt1 => Sys2Proof.Machine.execDecodeAsDpt1 s
  | .decodeAsDpt2 => Sys2Proof.Machine.execDecodeAsDpt2 s
  | .decodeAsDpt3 => Sys2Proof.Machine.execDecodeAsDpt3 s
  | .decodeAsDpt4 => Sys2Proof.Machine.execDecodeAsDpt4 s
  | .decodeAsDpt5 => Sys2Proof.Machine.execDecodeAsDpt5 s
  | .decodeAsDpt6 => Sys2Proof.Machine.execDecodeAsDpt6 s
  | .decodeAsDpt7 => Sys2Proof.Machine.execDecodeAsDpt7 s
  | .decodeAsDpt8 => Sys2Proof.Machine.execDecodeAsDpt8 s
  | .decodeAsDpt9 => Sys2Proof.Machine.execDecodeAsDpt9 s
  | .decodeAsDpt10 => Sys2Proof.Machine.execDecodeAsDpt10 s
  | .decodeAsDpt11 => Sys2Proof.Machine.execDecodeAsDpt11 s
  | .decodeAsDpt12 => Sys2Proof.Machine.execDecodeAsDpt12 s
  | .decodeAsDpt13 => Sys2Proof.Machine.execDecodeAsDpt13 s
  | .decodeAsDpt14 => Sys2Proof.Machine.execDecodeAsDpt14 s
  | .decodeAsDpt16 => Sys2Proof.Machine.execDecodeAsDpt16 s
  | .decodeAsDpt232 => Sys2Proof.Machine.execDecodeAsDpt232 s
  | .decodeAsUnknown k => Sys2Proof.Machine.execDecodeAsUnknown k s
  | .decodeGuess n => Sys2Proof.Machine.execDecodeGuess n s
  | .encodeDpt1 => Sys2Proof.Machine.execEncodeDpt1 s
  | .encodeDpt2 => Sys2Proof.Machine.execEncodeDpt2 s
  | .encodeDpt3 => Sys2Proof.Machine.execEncodeDpt3 s
  | .encodeDpt5 => Sys2Proof.Machine.execEncodeDpt5 s
  | .encodeDpt7 => Sys2Proof.Machine.execEncodeDpt7 s
  | .encodeDpt9 => Sys2Proof.Machine.execEncodeDpt9 s
  | .encodeDpt10 => Sys2Proof.Machine.execEncodeDpt10 s
  | .encodeDpt11 => Sys2Proof.Machine.execEncodeDpt11 s
  | .encodeDpt14 => Sys2Proof.Machine.execEncodeDpt14 s
  | .encodeDpt4 => Sys2Proof.Machine.execEncodeDpt4 s
  | .encodeDpt6 => Sys2Proof.Machine.execEncodeDpt6 s
  | .encodeDpt8 => Sys2Proof.Machine.execEncodeDpt8 s
  | .encodeDpt12 => Sys2Proof.Machine.execEncodeDpt12 s
  | .encodeDpt13 => Sys2Proof.Machine.execEncodeDpt13 s
  | .encodeDpt16 => Sys2Proof.Machine.execEncodeDpt16 s
  | .encodeDpt232 => Sys2Proof.Machine.execEncodeDpt232 s
  | .encodeUnknown k => Sys2Proof.Machine.execEncodeUnknown k s
  | .status => Sys2Proof.Machine.execStatus s
  | .reset => Sys2Proof.Machine.execReset s
  | .illegal op arg => Sys2Proof.Machine.execIllegal op arg s
  | .frameShort b => Sys2Proof.Machine.execFrameShort b s
  | .frameConfirm => Sys2Proof.Machine.execFrameConfirm s
  | .frameAck => Sys2Proof.Machine.execFrameAck s
  | .frameMalformed j => Sys2Proof.Machine.execFrameMalformed j s
  | .frameTelegram n => Sys2Proof.Machine.execFrameTelegram n s
  | .telegramReadPure => Sys2Proof.Machine.execTelegramReadPure s
  | .telegramWriteEmb b => Sys2Proof.Machine.execTelegramWriteEmb b s
  | .telegramResponseEmb b => Sys2Proof.Machine.execTelegramResponseEmb b s
  | .telegramUnknownEmb c => Sys2Proof.Machine.execTelegramUnknownEmb c s
  | .telegramReadExt => Sys2Proof.Machine.execTelegramReadExt s
  | .telegramWriteExt b => Sys2Proof.Machine.execTelegramWriteExt b s
  | .telegramResponseExt b => Sys2Proof.Machine.execTelegramResponseExt b s
  | .telegramUnknownExt c => Sys2Proof.Machine.execTelegramUnknownExt c s

end Sys2Proof.Machine
end

