-- ==== Sys2Proof/Machine/Fetch.lean ====
section
/-! DEFINITION. Operands of zeros for an instruction that the host places by its table word alone
(log entry 9): what `withFetchWord` in `Step.lean` puts at the command port. -/

namespace Sys2Proof.Machine

/-- The reference date of zeros: day 0, the first weekday. -/
def zeroRef : Ref := ⟨0, .monday⟩

/-- The operand value of zeros of the shape ENCODE takes for a type (R190); for a type it cannot encode,
the integer 0 (any shape is NotSupported). -/
def zeroNative (k : Byte) : Native :=
  match Dpt.ofCode k with
  | some .dpt1 => .bool false
  | some .dpt9 => .num 0
  | some .dpt10 => .tuple4 0 0 0 0
  | some .dpt11 => .tuple3 0 0 0
  | some .dpt14 => .f32 0
  | _ => .int 0

/-- The payload of zeros of the size DECODE_AS takes for a code; empty for an unknown code. -/
def zeroPayload (k : Byte) : Bytes :=
  match Dpt.ofCode k with
  | some d => List.replicate (dptSize d) 0
  | none => []

/-- The payload of zeros of the size the heuristic takes for a length field (R180). -/
def zeroGuessPayload (n : Byte) : Bytes :=
  List.replicate (if n = 8 ∨ n = 9 then 1 else if n = 10 then 2 else 4) 0

/-- The operand record of zeros of the shape a command word takes (R71). -/
def zeroOperand (w : Word) : Operand :=
  if hiByte w = 0x01 then .chunk [] zeroRef
  else if hiByte w = 0x02 then .bytesRef (zeroPayload (loByte w)) zeroRef
  else if hiByte w = 0x03 then .bytes (zeroGuessPayload (loByte w))
  else if hiByte w = 0x04 then .value (zeroNative (loByte w))
  else .nothing

/-- A frame of zeros with length field `n` and, where it reaches offset 9, control byte `c` (R51). -/
def zeroFrame (n c : Byte) : Bytes :=
  ([0, n, 0, 0, 0, 0, 0, 0, 0, c] ++ List.replicate (n.toNat - 8) 0).take (frameTotal n)

/-- The frame of zeros that a table word of a frame or telegram row names; none for a command word. The
shortest extended telegram has `n = 9`. -/
def frameOfTableWord (nbits w : Nat) : Option Bytes :=
  match decodeTableWord nbits w with
  | some i =>
    let c : Byte := BitVec.ofNat 8 w
    match (encode i).1 with
    | .cmd16 => none
    | .frameLen => some (zeroFrame c 0)
    | .telegramEmbedded => some (zeroFrame 8 c)
    | .telegramExtended => some (zeroFrame 9 c)
  | none => none

/-- The request that runs a table word: the command word with operands of zeros, or, for a frame or
telegram row, the FEED of one such frame (log entry 9). -/
def requestOfTableWord (nbits w : Nat) : Request :=
  match frameOfTableWord nbits w with
  | some F => ⟨0x0100, .chunk F zeroRef, []⟩
  | none => ⟨BitVec.ofNat 16 w, zeroOperand (BitVec.ofNat 16 w), []⟩

end Sys2Proof.Machine
end

