-- ==== Sys2Proof/Machine/Step.lean ====
section
/-! DEFINITION. One step of the machine: one command (`44_system.md` R220, `20_memory.md` R58). The block
has no program counter and fetches no program (R25, R65): its instructions arrive at the command port. -/

namespace Sys2Proof.Machine

/-- Take the oldest request and execute it to its end. With no request the block waits, and nothing
changes (R262; log entry 1). -/
def step (s : State) : Host.Outcome State Fault Refusal :=
  match s.port with
  | [] => .next s
  | r :: rest => exec (decodeCommand r.cmd) (latchRequest r rest s)

/-- `s` with a table word placed so that the next step runs it (log entry 9). A command word goes to the
front of the command port. A frame or telegram row is run by FEED's drain loop, so a FEED of one such frame
goes there, and the block is made ready to drain it: no earlier bytes, no fault, no capacity limit. -/
def State.withFetchWord (s : State) (nbits w : Nat) : State :=
  match frameOfTableWord nbits w with
  | some _ =>
    { (resetBlock s) with pendingCap := none, port := requestOfTableWord nbits w :: s.port }
  | none => { s with port := requestOfTableWord nbits w :: s.port }

end Sys2Proof.Machine
end

