-- ==== Sys2Proof/Safety.lean ====
section
/-! DEFINITION. What counts as a good state and a good result, and how claims feed a stream: the invariant
that every step keeps, and the events a sequence of chunks gives (`00_scope.md` R12, `10_state.md` R20 to
R23, `40_frame_splitter.md` R117). -/

namespace Sys2Proof.Machine

/-! ## Good data -/

/-- A Decoded Result is never partially filled: a value exactly when there is no error (R12). -/
def Decoded.Filled (R : Decoded) : Prop := R.err = .noError ↔ R.value.isSome = true

/-- Every Decoded Result an event carries is filled or an error. -/
def Event.Filled : Event → Prop
  | .evRead _ _ | .evTelegram _ _ _ _ => True
  | .evAction _ _ _ R | .evDest _ _ _ _ R => R.Filled

/-- Every Decoded Result in a result record is filled or an error. -/
def Result.Filled : Result → Prop
  | .feed _ events => ∀ ev ∈ events, ev.Filled
  | .decoded R => R.Filled
  | .encoded _ | .status _ _ _ _ | .plain _ => True

/-- `bs` holds no complete frame: fewer than 2 bytes, or fewer than its first frame needs (R22). -/
def NoCompleteFrame (bs : Bytes) : Prop := ∀ n, lengthField bs = some n → bs.length < frameTotal n

/-- The fault record is all clear, or it is the record of one frame of 6 to 9 bytes (R20, R27, R29). -/
def FaultRecordOk (s : State) : Prop :=
  if s.fault then
    s.faultCause = Err.malformedFrame.code ∧ 6 ≤ s.faultLen.toNat ∧ s.faultLen.toNat ≤ 9 ∧
      s.faultFrame.length = s.faultLen.toNat ∧
      (lengthField s.faultFrame).map frameTotal = some s.faultLen.toNat
  else s.faultCause = 0 ∧ s.faultLen = 0 ∧ s.faultFrame = []

/-- The states between commands that runs reach: the fault record is consistent (R20), `PENDING` holds no
complete frame while no fault is recorded (R22), `PENDING` is within its capacity (R23), no events are
kept (R35), and the last result is filled (R12). -/
structure Inv (s : State) : Prop where
  record : FaultRecordOk s
  drained : s.fault = false → NoCompleteFrame s.pending
  capacity : fitsPending s.pendingCap s.pending.length = true
  noEvents : s.events = []
  filled : ∀ r, s.result = some r → r.Filled

/-- A step that completes. Every step of this machine does (R220, R230). -/
def Completes (s : State) : Prop := ∃ t, step s = .next t

/-! ## Feeding a stream -/

/-- One FEED, as a step with that request alone at the command port. -/
def feedStep (L : Lookup) (ref : Ref) (chunk : Bytes) (s : State) : Host.Outcome State Fault Refusal :=
  step { s with port := [⟨0x0100, .chunk chunk ref, L⟩] }

/-- FEED the chunks one after another: all their events in order, and the last state. -/
def feedAll (L : Lookup) (ref : Ref) : List Bytes → State → Option (List Event × State)
  | [], s => some ([], s)
  | chunk :: rest, s =>
    match feedStep L ref chunk s with
    | .next t =>
      match t.result with
      | some (.feed _ events) => (feedAll L ref rest t).map (fun p => (events ++ p.1, p.2))
      | _ => none
    | .fault _ => none
    | .refused _ => none

end Sys2Proof.Machine
end

