-- ==== Sys2Proof/Certificates/Slice0/Obligations.lean ====
section
/-! DEFINITION. The statements for the provers, and the words they are said in. The words of `Claims` are
written from the rules anew and call the model's own functions only where a rule names a function of the
spec (`decodeAs`, `decode`, `L`, `fmt`). -/

namespace Sys2Proof.Claims

open Sys2Proof.Machine

/-! ## Numbers in byte sequences -/

/-- The number of byte `i` of a sequence. -/
def byteNum (P : Bytes) (i : Nat) : Nat := (P.getD i 0).toNat

/-- `u16be(P, i)` as a number (R9). -/
def big16 (P : Bytes) (i : Nat) : Nat := 256 * byteNum P i + byteNum P (i + 1)

/-- `u32be(P, 0)` as a number (R9). -/
def big32 (P : Bytes) : Nat := 65536 * big16 P 0 + big16 P 2

/-- Two's complement of `w` bits (R10). -/
def signed (w v : Nat) : Int := if v < 2 ^ (w - 1) then v else (v : Int) - 2 ^ w

/-- The 16-bit address at offset `i` (R77). -/
def addressAt (F : Bytes) (i : Nat) : Word := BitVec.ofNat 16 (big16 F i)

/-! ## Telegrams -/

/-- The action table (R78). -/
def actionByTable (c : Byte) : Action :=
  if c.toNat = 0 then .read
  else if c.toNat = 128 ∨ c.toNat = 129 then .write
  else if c.toNat = 64 ∨ c.toNat = 65 then .response
  else .unknown

/-- The payload of a telegram `F` (R110): its last byte when `n ≤ 8`, else everything from offset 10. -/
def payloadBySpec (F : Bytes) : Bytes := if byteNum F 1 ≤ 8 then [F.getLastD 0] else F.drop 10

/-- The Decoded Result of a telegram (R112). -/
def resultBySpec (L : Lookup) (ref : Ref) (F : Bytes) : Decoded :=
  match Lookup.get L (Config.fmt (addressAt F 6) true) with
  | some k => decodeAs k (payloadBySpec F) ref
  | none => decodeGuessed (F.getD 1 0) (payloadBySpec F)

/-- The three events of the decode path (R114). -/
def threeEvents (L : Lookup) (ref : Ref) (act : Action) (F : Bytes) : List Event :=
  [.evTelegram act (addressAt F 4) (addressAt F 6) (payloadBySpec F),
   .evAction act (addressAt F 4) (addressAt F 6) (resultBySpec L ref F),
   .evDest (Config.fmt (addressAt F 6) true) act (addressAt F 4) (addressAt F 6) (resultBySpec L ref F)]

/-- All events of a telegram `F` (R111, R113, R114). -/
def eventsBySpec (L : Lookup) (ref : Ref) (F : Bytes) : List Event :=
  if byteNum F 9 = 0 ∧ byteNum F 1 = 8 then [.evRead (addressAt F 4) (addressAt F 6)]
  else threeEvents L ref (actionByTable (F.getD 9 0)) F

/-- The event name of an action (R78). -/
def nameByTable : Action → String
  | .read => "read"
  | .write => "write"
  | .response => "response"
  | .unknown => "unknown"

/-- `F` is one whole frame: it has a length byte, and exactly the bytes that byte declares (R75). -/
def IsFrame (F : Bytes) : Prop := 2 ≤ F.length ∧ F.length = byteNum F 1 + 2

/-- How a stream splits (R101 to R106): `Splits L ref bs events left bad` says that draining `bs` emits
`events`, leaves `left`, and stops at the malformed frame `bad`, if there is one. -/
inductive Splits (L : Lookup) (ref : Ref) : Bytes → List Event → Bytes → Option Bytes → Prop where
  | stop {bs : Bytes} (h : NoCompleteFrame bs) : Splits L ref bs [] bs none
  | silent {F rest left : Bytes} {events : List Event} {bad : Option Bytes} (hF : IsFrame F)
      (hT : F.length ≤ 5) (h : Splits L ref rest events left bad) : Splits L ref (F ++ rest) events left bad
  | malformed {F rest : Bytes} (hF : IsFrame F) (h6 : 6 ≤ F.length) (h9 : F.length ≤ 9) :
      Splits L ref (F ++ rest) [] rest (some F)
  | telegram {F rest left : Bytes} {events : List Event} {bad : Option Bytes} (hF : IsFrame F)
      (hT : 10 ≤ F.length) (h : Splits L ref rest events left bad) :
      Splits L ref (F ++ rest) (eventsBySpec L ref F ++ events) left bad

/-- The state after a FEED with that outcome (R100, R106). -/
def afterFeed (s : State) (ref : Ref) (events : List Event) (left : Bytes) : Option Bytes → State
  | none => { s with pending := left, ref := ref, events := [], result := some (.feed .noError events) }
  | some F => { s with pending := left, fault := true, faultCause := 3, faultLen := BitVec.ofNat 9 F.length,
                       faultFrame := F, ref := ref, events := [],
                       result := some (.feed .malformedFrame events) }

/-- The decode-path rows with their action, and whether the payload is embedded (R92, R114). -/
def decodePathRow : Instr → Option (Action × Bool)
  | .telegramWriteEmb _ => some (.write, true)
  | .telegramResponseEmb _ => some (.response, true)
  | .telegramUnknownEmb _ => some (.unknown, true)
  | .telegramReadExt => some (.read, false)
  | .telegramWriteExt _ => some (.write, false)
  | .telegramResponseExt _ => some (.response, false)
  | .telegramUnknownExt _ => some (.unknown, false)
  | _ => none

/-- The total length of the frame a frame or telegram row waits for; none where the row does not tell it
and `PENDING` does not show it yet (R76, R92). -/
def rowTotal (pending : Bytes) : Instr → Option Nat
  | .frameShort b => some (b.toNat + 2)
  | .frameConfirm => some 4
  | .frameAck => some 5
  | .frameMalformed j => some (j.toNat + 6)
  | .frameTelegram n => some (n.toNat + 2)
  | .telegramReadPure | .telegramWriteEmb _ | .telegramResponseEmb _ | .telegramUnknownEmb _ => some 10
  | _ => (lengthField pending).map (fun n => n.toNat + 2)

/-! ## Commands -/

/-- `i` answers a DECODE_AS of code `k` with the value `value P ref`, for every payload of `size` bytes,
and changes nothing else. -/
def AnswersDecoded (i : Instr) (k : Byte) (size : Nat) (value : Bytes → Ref → Value) : Prop :=
  ∀ (s : State) (P : Bytes) (ref : Ref), s.operand = .bytesRef P ref → P.length = size →
    exec i s = .next { s with result := some (.decoded ⟨.noError, k, some (value P ref)⟩) }

/-- `i` answers an ENCODE of the value `v` with `e`, and changes nothing else. -/
def AnswersEncoded (i : Instr) (v : Native) (e : Encoded) : Prop :=
  ∀ s : State, s.operand = .value v → exec i s = .next { s with result := some (.encoded e) }

/-- The DECODE_AS rows with their code and size (R80). -/
def decodeRows : List (Instr × Byte × Nat) :=
  [(.decodeAsDpt1, 1, 1), (.decodeAsDpt2, 2, 1), (.decodeAsDpt3, 3, 1), (.decodeAsDpt4, 4, 1),
   (.decodeAsDpt5, 5, 1), (.decodeAsDpt6, 6, 1), (.decodeAsDpt7, 7, 2), (.decodeAsDpt8, 8, 2),
   (.decodeAsDpt9, 9, 2), (.decodeAsDpt10, 10, 3), (.decodeAsDpt11, 11, 3), (.decodeAsDpt12, 12, 4),
   (.decodeAsDpt13, 13, 4), (.decodeAsDpt14, 14, 4), (.decodeAsDpt16, 16, 14), (.decodeAsDpt232, 232, 3)]

/-- The ENCODE rows of the decode-only types (R3). -/
def decodeOnlyRows : List Instr :=
  [.encodeDpt4, .encodeDpt6, .encodeDpt8, .encodeDpt12, .encodeDpt13, .encodeDpt16, .encodeDpt232]

/-- The shape of value each encodable row takes (R190). -/
def rightValueShape : Instr → Native → Bool
  | .encodeDpt1, .bool _ => true
  | .encodeDpt2, .int _ | .encodeDpt3, .int _ | .encodeDpt5, .int _ | .encodeDpt7, .int _ => true
  | .encodeDpt9, .num _ | .encodeDpt9, .nonFinite => true
  | .encodeDpt10, .tuple4 _ _ _ _ => true
  | .encodeDpt11, .tuple3 _ _ _ => true
  | .encodeDpt14, .f32 _ => true
  | _, _ => false

/-- The encodable rows (R3). -/
def encodableRows : List Instr :=
  [.encodeDpt1, .encodeDpt2, .encodeDpt3, .encodeDpt5, .encodeDpt7, .encodeDpt9, .encodeDpt10,
   .encodeDpt11, .encodeDpt14]

/-- The shape of operand record each `OP` takes (R71). -/
def rightRecordShape (op : Byte) : Operand → Bool
  | .chunk _ _ => op == 0x01
  | .bytesRef _ _ => op == 0x02
  | .bytes _ => op == 0x03
  | .value _ => op == 0x04
  | .nothing => op == 0x05 || op == 0x06

/-- The codec commands: DECODE_AS, DECODE_GUESS and ENCODE (R36). -/
def IsCodec (i : Instr) : Prop :=
  i.WellFormed ∧ (encode i).1 = .cmd16 ∧
    (hiByte (encode i).2 = 0x02 ∨ hiByte (encode i).2 = 0x03 ∨ hiByte (encode i).2 = 0x04)

/-! ## DPT9 -/

/-- `m` is `100 q / 2^e` rounded to the nearest integer, a tie upward (R10, R196). -/
def Nearest (q : Rat) (e : Nat) (m : Int) : Prop :=
  (2 ^ e : Rat) * (2 * (m : Rat) - 1) ≤ 200 * q ∧ 200 * q < (2 ^ e : Rat) * (2 * (m : Rat) + 1)

/-- `m` is in the range the DPT9 decoder can return (R83). -/
def InMantissaRange (m : Int) : Prop := -2048 ≤ m ∧ m ≤ 2047

/-- The number of the DPT9 word with exponent `e` and mantissa `m` (R83). -/
def busFloatNumber (m : Int) (e : Nat) : Nat := (if m < 0 then 32768 else 0) + 2048 * e + (m % 2048).toNat

/-- The two bytes of a 16-bit number, big-endian (R52). -/
def twoBytes (w : Nat) : Bytes := [BitVec.ofNat 8 (w / 256), BitVec.ofNat 8 (w % 256)]

end Sys2Proof.Claims

open Sys2Proof Sys2Proof.Machine Sys2Proof.Claims

/-! # Encodings -/

/-- Decode and encode agree (R70, R76, R78, R80): every well-formed instruction, with every value of its
fields, decodes from its own word. -/
def Obligations.DecodeOfEncode : Prop :=
  ∀ i : Instr, i.WellFormed → decode (encode i).1 (encode i).2 = .ok i

/-- The other direction: each word of each format has one instruction, well formed, and is its word. So no
two words decode alike. -/
def Obligations.EncodeOfDecode : Prop :=
  ∀ (f : Format) (w : Word) (i : Instr), decode f w = .ok i → i.WellFormed ∧ encode i = (f, w)

/-- R92: the row a word decodes to matches it, and every other row of the format that matches it has fewer
mask bits. For `cmd16` every word has such a row. -/
def Obligations.MostSpecificRowWins : Prop :=
  (∀ (f : Format) (w : Word) (i : Instr), decode f w = .ok i →
    ∃ r ∈ opcodeTable, r.format = f ∧ r.mnemonic = i.mnemonic ∧ w &&& r.mask = r.pattern ∧
      ∀ r' ∈ opcodeTable, r'.format = f → w &&& r'.mask = r'.pattern → r' ≠ r →
        maskBits r'.mask < maskBits r.mask) ∧
  (∀ w : Word, ∃ i, decode .cmd16 w = .ok i)

/-- R72: which command words are illegal, and that a step with one returns IllegalCommand and changes no
state, whatever the operand record and whether or not a fault is recorded. -/
def Obligations.IllegalCommandWords : Prop :=
  (∀ op arg : Byte, decodeCommand (wordOf op arg) = .illegal op arg ↔
    (op = 0x00 ∨ 0x07 ≤ op.toNat ∨ ((op = 0x01 ∨ op = 0x05 ∨ op = 0x06) ∧ arg ≠ 0))) ∧
  (∀ (s : State) (r : Request) (rest : List Request) (op arg : Byte), s.port = r :: rest →
    r.cmd = wordOf op arg →
    (op = 0x00 ∨ 0x07 ≤ op.toNat ∨ ((op = 0x01 ∨ op = 0x05 ∨ op = 0x06) ∧ arg ≠ 0)) →
    step s = .next { s with port := rest, operand := r.operand, lookup := r.lookup,
                            result := some (.plain .illegalCommand) })

/-- A few words written out from the spec's tables decode to what they stand for (R71, R76, R78). -/
def Obligations.SampleWordsDecode : Prop :=
  decode .cmd16 0x0100 = .ok .feed ∧ decode .cmd16 0x0209 = .ok .decodeAsDpt9 ∧
  decode .cmd16 0x020F = .ok (.decodeAsUnknown 15) ∧ decode .cmd16 0x030B = .ok (.decodeGuess 11) ∧
  decode .cmd16 0x04E8 = .ok .encodeDpt232 ∧ decode .cmd16 0x0500 = .ok .status ∧
  decode .cmd16 0x0600 = .ok .reset ∧ decode .cmd16 0x0101 = .ok (.illegal 1 1) ∧
  decode .frameLen 0x0007 = .ok (.frameMalformed 3) ∧ decode .frameLen 0x0008 = .ok (.frameTelegram 8) ∧
  decode .telegramEmbedded 0x0881 = .ok (.telegramWriteEmb 1) ∧
  decode .telegramExtended 0x0040 = .ok (.telegramResponseExt 0)

/-! # Steps -/

/-- A step runs the decoded instruction: with a request at the port, it takes the request and executes the
command its word names, over its operand record and its lookup. With no request nothing changes; that
clause is the model's own choice (log entry 1). -/
def Obligations.StepRunsDecodedCommand : Prop :=
  (∀ (s : State) (r : Request) (rest : List Request), s.port = r :: rest →
    step s = exec (decodeCommand r.cmd) { s with port := rest, operand := r.operand, lookup := r.lookup }) ∧
  (∀ s : State, s.port = [] → step s = .next s)

/-- A frame row is one pass of FEED's drain loop, and the row of a telegram is the telegram row that its
control byte names. That exec of a row is that pass, over every state and also where no frame of the row is at
the front, is the model's own choice and no rule's (log entry 7). From the rules come only the row that a
length byte or a control byte names (R92, R103, R109). -/
def Obligations.DrainPassRunsFrameRow : Prop :=
  (∀ (n : Byte) (s : State), exec (decodeFrameLen n) s = .next (framePass n s)) ∧
  (∀ (n : Byte) (s : State), n.toNat + 2 ≤ s.pending.length → 8 ≤ n.toNat →
    exec (.frameTelegram n) s =
      exec (if n.toNat = 8 then decodeEmbedded (s.pending.getD 9 0) else decodeExtended (s.pending.getD 9 0)) s)

/-- The drain loop of R100, without a bound: it stops with no complete frame (R101); it stops on a fault
(R106); otherwise it goes on after the frame (R104), of which it has removed exactly the bytes (R102). -/
def Obligations.DrainLoopEquation : Prop :=
  (∀ s : State, NoCompleteFrame s.pending → feedDrain s = s) ∧
  (∀ (s : State) (n : Byte), lengthField s.pending = some n → n.toNat + 2 ≤ s.pending.length →
    (framePass n s).pending = s.pending.drop (n.toNat + 2) ∧
    feedDrain s = if (framePass n s).fault = true then framePass n s else feedDrain (framePass n s))

/-- Every instruction and every step completes with a next state. R220 says of commands that none suspends,
waits or blocks. The rest is the model's: that no condition at all stops it is read from the spec by inference
(log entry 8), the frame and telegram rows run on their own over any state are its choice (log entry 7), and so
is the step with no request (log entry 1). -/
def Obligations.EveryStepCompletes : Prop :=
  (∀ (i : Instr) (s : State), ∃ t, exec i s = .next t) ∧ (∀ s : State, ∃ t, step s = .next t)

/-- A step takes exactly one request, the oldest, answers it with a result record, and writes no
configuration. The queue of requests, one request a step, and the step without one are the model's own choice
(log entry 1), and so is the capacity as a field of State (log entry 3). From the rules come the order of the
commands (R220) and one result for each (R38). -/
def Obligations.StepAnswersOneRequest : Prop :=
  ∀ s t : State, step s = .next t →
    t.port = s.port.tail ∧ t.pendingCap = s.pendingCap ∧ (s.port ≠ [] → t.result ≠ none)

/-! # Invariants and the fault -/

/-- The invariant holds of a new instance. The clauses on the fault record (R20), the complete frame (R22) and
the capacity (R23) follow from the reset values of R261 and the unbounded default. The clauses that no events
are kept (R35) and that the last result is filled (R12) hold because the model starts its own fields `events` and
`result` empty, which is its choice and no rule's (log entry 2). -/
def Obligations.InvariantAtReset : Prop := Inv State.reset

/-- Every step keeps the invariant: a consistent fault record, no complete frame left while no fault is
recorded (R22), the capacity kept (R23), no events kept (R35), and no partially filled result (R12). -/
def Obligations.StepKeepsInvariant : Prop := ∀ s t : State, Inv s → step s = .next t → Inv t

/-- R26: only a FEED that meets a malformed frame sets `FAULT`, and only RESET clears it. -/
def Obligations.FaultSetByFeedClearedByReset : Prop :=
  ∀ s t : State, step s = .next t → t.fault ≠ s.fault →
    ∃ (r : Request) (rest : List Request), s.port = r :: rest ∧
      ((s.fault = false ∧ r.cmd = 0x0100 ∧ ∃ events, t.result = some (.feed .malformedFrame events)) ∨
       (s.fault = true ∧ r.cmd = 0x0600 ∧ r.operand = .nothing))

/-- R242: while `FAULT = 1` nothing but RESET changes the accumulator or the fault record. -/
def Obligations.FaultIsSticky : Prop :=
  ∀ s t : State, s.fault = true → step s = .next t →
    (∃ (L : Lookup) (rest : List Request), s.port = ⟨0x0600, .nothing, L⟩ :: rest) ∨
    (t.pending = s.pending ∧ t.fault = true ∧ t.faultCause = s.faultCause ∧ t.faultLen = s.faultLen ∧
      t.faultFrame = s.faultFrame)

/-- R21: only FEED and RESET write the accumulator and the fault record. -/
def Obligations.BlockWrittenOnlyByFeedAndReset : Prop :=
  ∀ s t : State, step s = .next t →
    (∀ (r : Request) (rest : List Request), s.port = r :: rest → r.cmd ≠ 0x0100 ∧ r.cmd ≠ 0x0600) →
    t.pending = s.pending ∧ t.fault = s.fault ∧ t.faultCause = s.faultCause ∧ t.faultLen = s.faultLen ∧
      t.faultFrame = s.faultFrame

/-! # FEED -/

/-- FEED refines the splitting of the stream: from any state that may feed, the accumulator with the chunk
splits in exactly one way, and FEED answers the events of that splitting, keeps what it leaves, and records
its malformed frame (R100 to R106, R236). The state after is written whole, so it is also the frame. -/
def Obligations.FeedRefinesSplitting : Prop :=
  ∀ (s : State) (chunk : Bytes) (ref : Ref), s.operand = .chunk chunk ref → s.fault = false →
    fitsPending s.pendingCap (s.pending.length + chunk.length) = true →
    (∃ events left bad, Splits s.lookup ref (s.pending ++ chunk) events left bad) ∧
    (∀ events left bad, Splits s.lookup ref (s.pending ++ chunk) events left bad →
      exec .feed s = .next (afterFeed s ref events left bad))

/-- R238: while `FAULT = 1` a FEED answers FaultActive, code 7, with no event, whatever the chunk and the
capacity, and appends nothing. -/
def Obligations.FeedRefusedWhileFault : Prop :=
  (∀ (s : State) (chunk : Bytes) (ref : Ref), s.operand = .chunk chunk ref → s.fault = true →
    exec .feed s = .next { s with result := some (.feed .faultActive []) }) ∧
  Err.faultActive.code = 7

/-- R239: a FEED that would pass a finite capacity answers Overflow, code 8, and appends nothing; and a FEED
answers Overflow only then, so never with no capacity set. FaultActive comes first (R240). -/
def Obligations.FeedOverflow : Prop :=
  (∀ (s : State) (chunk : Bytes) (ref : Ref) (cap : Nat), s.operand = .chunk chunk ref → s.fault = false →
    s.pendingCap = some cap → cap < s.pending.length + chunk.length →
    exec .feed s = .next { s with result := some (.feed .overflow []) }) ∧
  (∀ (s : State) (chunk : Bytes) (ref : Ref), s.operand = .chunk chunk ref →
    ∃ t err events, exec .feed s = .next t ∧ t.result = some (.feed err events) ∧
      (err = .overflow → s.fault = false ∧
        ∃ cap, s.pendingCap = some cap ∧ cap < s.pending.length + chunk.length)) ∧
  Err.overflow.code = 8

/-- R22: after a FEED that ends without a fault the accumulator holds no complete frame, so at most 256
bytes: after one that drained, from any state, and after a refused one from a good state. -/
def Obligations.FeedLeavesNoCompleteFrame : Prop :=
  ∀ s t : State, exec .feed s = .next t →
    ((∃ events, t.result = some (.feed .noError events)) ∨ (Inv s ∧ t.fault = false)) →
    (t.pending.length < 2 ∨ t.pending.length < byteNum t.pending 1 + 2) ∧ t.pending.length ≤ 256

/-- R59: after a good state without a fault, a FEED of no bytes emits nothing and changes nothing but the
result record and the `REF` it was given. -/
def Obligations.EmptyFeedDoesNothing : Prop :=
  ∀ (s : State) (ref : Ref), Inv s → s.fault = false → s.operand = .chunk [] ref →
    exec .feed s = .next { s with ref := ref, result := some (.feed .noError []) }

/-- R117: chunk-partition invariance. From a good state with room for the whole stream, feeding a stream in
any chunks gives the events of feeding it at once, in the same order, and the same fault record; and the
same accumulator when no fault is raised. -/
def Obligations.ChunkPartitionInvariance : Prop :=
  ∀ (L : Lookup) (ref : Ref) (s : State) (chunks : List Bytes), Inv s →
    fitsPending s.pendingCap (s.pending.length + chunks.flatten.length) = true →
    ∃ (events : List Event) (t u : State),
      feedAll L ref chunks s = some (events, t) ∧ feedAll L ref [chunks.flatten] s = some (events, u) ∧
      t.fault = u.fault ∧ t.faultCause = u.faultCause ∧ t.faultLen = u.faultLen ∧
      t.faultFrame = u.faultFrame ∧ (t.fault = false → t.pending = u.pending)

/-! # Frame and telegram rows -/

/-- The rows of frames of 2 to 5 bytes emit no event and change no state except the removal of their bytes.
Over a frame of the row this is R105. That the row takes its length from its own word, so that it does the same
over bytes that are no such frame, is the model's own choice (log entry 7). -/
def Obligations.ShortConfirmAckAreSilent : Prop :=
  (∀ (b : BitVec 1) (s : State), b.toNat + 2 ≤ s.pending.length →
    exec (.frameShort b) s = .next { s with pending := s.pending.drop (b.toNat + 2) }) ∧
  (∀ s : State, 4 ≤ s.pending.length →
    exec .frameConfirm s = .next { s with pending := s.pending.drop 4 }) ∧
  (∀ s : State, 5 ≤ s.pending.length →
    exec .frameAck s = .next { s with pending := s.pending.drop 5 })

/-- The row of a frame of 6 to 9 bytes consumes it, emits nothing, and sets the whole fault record; nothing
else is saved. Over a frame of the row this is R106 and R236. That the row takes its length from its own word,
so that it does the same over bytes that are no such frame, is the model's own choice (log entry 7). -/
def Obligations.MalformedFrameSetsRecord : Prop :=
  ∀ (j : BitVec 2) (s : State), j.toNat + 6 ≤ s.pending.length →
    exec (.frameMalformed j) s = .next
      { s with pending := s.pending.drop (j.toNat + 6), fault := true, faultCause := 3,
               faultLen := BitVec.ofNat 9 (j.toNat + 6), faultFrame := s.pending.take (j.toNat + 6) }

/-- R108 to R111: a whole telegram at the front is consumed and emits its events: the action by the table,
the payload by the length field, and a pure read exactly for action read with the embedded form. -/
def Obligations.TelegramFrameParsed : Prop :=
  ∀ (F rest : Bytes) (s : State), IsFrame F → 10 ≤ F.length → s.pending = F ++ rest →
    exec (.frameTelegram (F.getD 1 0)) s =
      .next { s with pending := rest, events := s.events ++ eventsBySpec s.lookup s.ref F }

/-- The row of a pure read emits exactly one event, named "read", with the two formatted addresses and no
decode, whatever the lookup. Over a pure read this is R113. That the row does the same over any ten bytes,
whatever their length byte and control byte, is the model's own choice (log entry 7). -/
def Obligations.PureReadEmitsOneEvent : Prop :=
  (∀ s : State, 10 ≤ s.pending.length →
    exec .telegramReadPure s = .next
      { s with pending := s.pending.drop 10,
               events := s.events ++ [.evRead (addressAt s.pending 4) (addressAt s.pending 6)] }) ∧
  (∀ src dst : Word, (Event.evRead src dst).name = "read" ∧
    (Event.evRead src dst).formatted = (Config.fmt src false, Config.fmt dst true))

/-- Every row of a telegram that is no pure read emits exactly three events, in this order, success or error,
with the action of its row, the payload of its form, and one Decoded Result for both; the second is named by
the action and the third by the destination. Over a telegram of the row this is R114. That the action is the
row's own, so that the row does the same over a frame with another control byte, is the model's own choice (log
entry 7). -/
def Obligations.DecodePathEmitsThreeEvents : Prop :=
  (∀ (i : Instr) (act : Action) (embedded : Bool) (F rest : Bytes) (s : State),
    decodePathRow i = some (act, embedded) → IsFrame F →
    (if embedded = true then byteNum F 1 = 8 else 9 ≤ byteNum F 1) → s.pending = F ++ rest →
    exec i s = .next { s with pending := rest, events := s.events ++ threeEvents s.lookup s.ref act F }) ∧
  (∀ (L : Lookup) (ref : Ref) (act : Action) (F : Bytes), (threeEvents L ref act F).map Event.name =
    ["telegram", nameByTable act, Config.fmt (addressAt F 6) true])

/-- A frame or telegram row whose frame is not all there consumes nothing and changes nothing. This is the
model's own choice (log entry 7): R101 says it of the drain loop, and no step runs a row on such a state. -/
def Obligations.IncompleteFrameStays : Prop :=
  ∀ (i : Instr) (s : State), (encode i).1 ≠ .cmd16 →
    (∀ T, rowTotal s.pending i = some T → s.pending.length < T) → exec i s = .next s

/-- R103: bytes 0, 2, 3 and 8 of a telegram affect nothing: two frames that differ only there give the same
next state. -/
def Obligations.UnreadBytesDoNotMatter : Prop :=
  ∀ (F G rest : Bytes) (s : State), IsFrame F → 10 ≤ F.length → F.length = G.length →
    (∀ k : Nat, k ≠ 0 → k ≠ 2 → k ≠ 3 → k ≠ 8 → F.getD k 0 = G.getD k 0) →
    exec (.frameTelegram (F.getD 1 0)) { s with pending := F ++ rest } =
      exec (.frameTelegram (G.getD 1 0)) { s with pending := G ++ rest }

/-- R118: the payload the parser passes on has `n - 8` bytes in the extended form and 1 in the embedded
form, so with no lookup entry the only length error is the one of `n = 11`. -/
def Obligations.ParserPayloadLengths : Prop :=
  ∀ F : Bytes, IsFrame F → 10 ≤ F.length →
    (payloadOf (F.getD 1 0) F).length = (if byteNum F 1 = 8 then 1 else byteNum F 1 - 8) ∧
    (decodeGuessed (F.getD 1 0) (payloadOf (F.getD 1 0) F)).err =
      (if byteNum F 1 = 11 then .lengthMismatch else .noError)

/-! # Datapoint decode -/

/-- R36: a codec command answers from its operand record alone and writes nothing but the result record:
two states with the same operand get the same answer, whatever else they hold. -/
def Obligations.CodecIsPure : Prop :=
  ∀ (i : Instr) (s u : State), IsCodec i → s.operand = u.operand →
    ∃ r : Result, exec i s = .next { s with result := some r } ∧ exec i u = .next { u with result := some r }

/-- R12: a Decoded Result is never partially filled, from either entry point. -/
def Obligations.DecodedNeverPartiallyFilled : Prop :=
  (∀ (k : Byte) (P : Bytes) (ref : Ref),
    (decodeAs k P ref).err = .noError ↔ (decodeAs k P ref).value ≠ none) ∧
  (∀ (n : Byte) (P : Bytes), (decodeGuessed n P).err = .noError ↔ (decodeGuessed n P).value ≠ none)

/-- R142: DPT1, over all 256 bytes. -/
def Obligations.DecodeDpt1 : Prop :=
  AnswersDecoded .decodeAsDpt1 1 1 (fun P _ =>
    .int (if byteNum P 0 ≤ 65 then (byteNum P 0 : Int) - 64 else (byteNum P 0 : Int) - 128))

/-- R143, R144, R146, R148 and R154: the unsigned integer types. -/
def Obligations.DecodeUnsigned : Prop :=
  AnswersDecoded .decodeAsDpt2 2 1 (fun P _ => .int (byteNum P 0 % 4 : Nat)) ∧
  AnswersDecoded .decodeAsDpt3 3 1 (fun P _ => .int (byteNum P 0 % 16 : Nat)) ∧
  AnswersDecoded .decodeAsDpt5 5 1 (fun P _ => .int (byteNum P 0)) ∧
  AnswersDecoded .decodeAsDpt7 7 2 (fun P _ => .int (big16 P 0)) ∧
  AnswersDecoded .decodeAsDpt12 12 4 (fun P _ => .int (big32 P))

/-- R147, R149 and R155: the signed integer types. -/
def Obligations.DecodeSigned : Prop :=
  AnswersDecoded .decodeAsDpt6 6 1 (fun P _ => .int (signed 8 (byteNum P 0))) ∧
  AnswersDecoded .decodeAsDpt8 8 2 (fun P _ => .int (signed 16 (big16 P 0))) ∧
  AnswersDecoded .decodeAsDpt13 13 4 (fun P _ => .int (signed 32 (big32 P)))

/-- R145: DPT4 is one character up to 127, and the text of the parameter `DPT4_HIGH` from 128. -/
def Obligations.DecodeDpt4 : Prop :=
  AnswersDecoded .decodeAsDpt4 4 1 (fun P _ =>
    if byteNum P 0 ≤ 127 then .text [byteNum P 0] else .opaque4 (P.getD 0 0)) ∧
  (∀ b : Byte, (Value.opaque4 b).textOf = some (Config.dpt4High b))

/-- R150: DPT9, every one of the 65536 words, and the rational the value denotes. -/
def Obligations.DecodeDpt9 : Prop :=
  AnswersDecoded .decodeAsDpt9 9 2 (fun P _ =>
    .busFloat ((big16 P 0 % 2048 : Nat) - 2048 * (big16 P 0 / 32768 : Nat)) (big16 P 0 / 2048 % 16)) ∧
  (∀ (m : Int) (e : Nat), (Value.busFloat m e).rational = some ((m : Rat) * 2 ^ e / 100))

/-- R151 and R152: the DPT10 fields as read, with no range check, and the day: the reference day for
weekday 0, else the day within three days of it that has the weekday. -/
def Obligations.DecodeDpt10 : Prop :=
  ∀ (s : State) (P : Bytes) (ref : Ref), s.operand = .bytesRef P ref → P.length = 3 →
    ∃ day : Int,
      exec .decodeAsDpt10 s = .next { s with result := some (.decoded ⟨.noError, 10,
        some (.time (byteNum P 0 / 32) (byteNum P 0 % 32) (byteNum P 1 % 64) (byteNum P 2 % 64) day)⟩) } ∧
      (byteNum P 0 / 32 = 0 → day = ref.day) ∧
      (byteNum P 0 / 32 ≠ 0 → -3 ≤ day - ref.day ∧ day - ref.day ≤ 3 ∧
        (7 : Int) ∣ ref.weekday.number + (day - ref.day) - (byteNum P 0 / 32 : Nat))

/-- R153: DPT11, with the fold at 90 and no calendar check. -/
def Obligations.DecodeDpt11 : Prop :=
  AnswersDecoded .decodeAsDpt11 11 3 (fun P _ =>
    .date (byteNum P 0 % 32) (byteNum P 1 % 16)
      (if byteNum P 2 < 90 then 2000 + byteNum P 2 else 1900 + byteNum P 2))

/-- R156: DPT14 passes every pattern on. -/
def Obligations.DecodeDpt14 : Prop :=
  AnswersDecoded .decodeAsDpt14 14 4 (fun P _ => .f32 (BitVec.ofNat 32 (big32 P)))

/-- R157: DPT16 keeps all 14 codes in offset order. -/
def Obligations.DecodeDpt16 : Prop :=
  AnswersDecoded .decodeAsDpt16 16 14 (fun P _ => .text (P.map BitVec.toNat))

/-- R158: DPT232 reverses the wire order. -/
def Obligations.DecodeDpt232 : Prop :=
  ∀ (s : State) (b g r : Byte) (ref : Ref), s.operand = .bytesRef [b, g, r] ref →
    exec .decodeAsDpt232 s = .next { s with result := some (.decoded ⟨.noError, 232, some (.rgb r g b)⟩) }

/-- R140: a payload of any other size than the type's gives LengthMismatch with the code tried and no
value, for each of the sixteen types. -/
def Obligations.DecodeLengthMismatch : Prop :=
  ∀ row ∈ decodeRows, ∀ (s : State) (P : Bytes) (ref : Ref), s.operand = .bytesRef P ref →
    P.length ≠ row.2.2 →
    exec row.1 s = .next { s with result := some (.decoded ⟨.lengthMismatch, row.2.1, none⟩) }

/-- R140 and R232: a code that names no type gives UnknownDatapointType, whatever the payload's length. -/
def Obligations.DecodeUnknownCode : Prop :=
  ∀ (k : Byte) (s : State) (P : Bytes) (ref : Ref), (Instr.decodeAsUnknown k).WellFormed →
    s.operand = .bytesRef P ref →
    exec (.decodeAsUnknown k) s =
      .next { s with result := some (.decoded ⟨.unknownDatapointType, k, none⟩) }

/-- R180 to R184: the heuristic for every length field and every payload. -/
def Obligations.GuessByLengthField : Prop :=
  ∀ (n : Byte) (s : State) (P : Bytes), s.operand = .bytes P →
    exec (.decodeGuess n) s = .next { s with result := some (.decoded (
      if n.toNat = 8 then
        if P.length = 1 then ⟨.noError, 1, some (.int (if byteNum P 0 ≤ 65 then (byteNum P 0 : Int) - 64
          else (byteNum P 0 : Int) - 128))⟩
        else ⟨.lengthMismatch, 1, none⟩
      else if n.toNat = 9 then
        if P.length = 1 then ⟨.noError, 5, some (.int (byteNum P 0))⟩ else ⟨.lengthMismatch, 5, none⟩
      else if n.toNat = 10 then
        if P.length = 2 then ⟨.noError, 9, some (.busFloat
          ((big16 P 0 % 2048 : Nat) - 2048 * (big16 P 0 / 32768 : Nat)) (big16 P 0 / 2048 % 16))⟩
        else ⟨.lengthMismatch, 9, none⟩
      else if P.length < 4 then ⟨.lengthMismatch, 14, none⟩
      else ⟨.noError, 14, some (.f32 (BitVec.ofNat 32 (big32 P)))⟩)) }

/-! # Datapoint encode -/

/-- R191: DPT1 encode. -/
def Obligations.EncodeDpt1 : Prop :=
  ∀ b : Bool, AnswersEncoded .encodeDpt1 (.bool b) ⟨.noError, [BitVec.ofNat 8 b.toNat]⟩

/-- R192, R193, R194 and R195: the integer types accept exactly their range, and the bytes are the number,
big-endian. -/
def Obligations.EncodeIntegers : Prop :=
  ∀ i : Int,
    AnswersEncoded .encodeDpt2 (.int i)
      (if 0 ≤ i ∧ i ≤ 3 then ⟨.noError, [BitVec.ofNat 8 i.toNat]⟩ else ⟨.outOfRange, []⟩) ∧
    AnswersEncoded .encodeDpt3 (.int i)
      (if 0 ≤ i ∧ i ≤ 15 then ⟨.noError, [BitVec.ofNat 8 i.toNat]⟩ else ⟨.outOfRange, []⟩) ∧
    AnswersEncoded .encodeDpt5 (.int i)
      (if 0 ≤ i ∧ i ≤ 255 then ⟨.noError, [BitVec.ofNat 8 i.toNat]⟩ else ⟨.outOfRange, []⟩) ∧
    AnswersEncoded .encodeDpt7 (.int i)
      (if 0 ≤ i ∧ i ≤ 65535 then ⟨.noError, twoBytes i.toNat⟩ else ⟨.outOfRange, []⟩)

/-- R196: DPT9 encode of a finite value takes the smallest exponent of 0..15 whose rounded mantissa fits
and lays out its word, or answers OutOfRange when none fits; a non-finite value is OutOfRange. -/
def Obligations.EncodeDpt9 : Prop :=
  (∀ q : Rat,
    (∃ (e : Nat) (m : Int), e < 16 ∧ InMantissaRange m ∧ Nearest q e m ∧
      (∀ e' < e, ∀ m', Nearest q e' m' → ¬ InMantissaRange m') ∧
      AnswersEncoded .encodeDpt9 (.num q) ⟨.noError, twoBytes (busFloatNumber m e)⟩) ∨
    ((∀ e < 16, ∀ m, Nearest q e m → ¬ InMantissaRange m) ∧
      AnswersEncoded .encodeDpt9 (.num q) ⟨.outOfRange, []⟩)) ∧
  AnswersEncoded .encodeDpt9 .nonFinite ⟨.outOfRange, []⟩

/-- R196: the encodable range of DPT9 is exactly from -671252.48 up to but excluding 670924.80. -/
def Obligations.EncodeDpt9Range : Prop :=
  ∀ q : Rat,
    ((-67125248 / 100 ≤ q ∧ q < 67092480 / 100) →
      ∃ P : Bytes, AnswersEncoded .encodeDpt9 (.num q) ⟨.noError, P⟩) ∧
    (¬ (-67125248 / 100 ≤ q ∧ q < 67092480 / 100) →
      AnswersEncoded .encodeDpt9 (.num q) ⟨.outOfRange, []⟩)

/-- R197: DPT10 encode. -/
def Obligations.EncodeDpt10 : Prop :=
  ∀ wd h mi sec : Int, AnswersEncoded .encodeDpt10 (.tuple4 wd h mi sec)
    (if 0 ≤ wd ∧ wd ≤ 7 ∧ 0 ≤ h ∧ h ≤ 23 ∧ 0 ≤ mi ∧ mi ≤ 59 ∧ 0 ≤ sec ∧ sec ≤ 59 then
      ⟨.noError, [BitVec.ofNat 8 (32 * wd + h).toNat, BitVec.ofNat 8 mi.toNat, BitVec.ofNat 8 sec.toNat]⟩
    else ⟨.outOfRange, []⟩)

/-- R198: DPT11 encode, with no century folding. -/
def Obligations.EncodeDpt11 : Prop :=
  ∀ d mo y : Int, AnswersEncoded .encodeDpt11 (.tuple3 d mo y)
    (if 1 ≤ d ∧ d ≤ 31 ∧ 1 ≤ mo ∧ mo ≤ 12 ∧ 0 ≤ y ∧ y ≤ 99 then
      ⟨.noError, [BitVec.ofNat 8 d.toNat, BitVec.ofNat 8 mo.toNat, BitVec.ofNat 8 y.toNat]⟩
    else ⟨.outOfRange, []⟩)

/-- R199: DPT14 encode, of every pattern, big-endian. -/
def Obligations.EncodeDpt14 : Prop :=
  ∀ w : Long, AnswersEncoded .encodeDpt14 (.f32 w)
    ⟨.noError, twoBytes (w.toNat / 65536) ++ twoBytes (w.toNat % 65536)⟩

/-- R234: encode of a decode-only type or of an unknown code answers NotSupported, code 4, for a value of
every shape. -/
def Obligations.EncodeNotSupported : Prop :=
  (∀ i ∈ decodeOnlyRows, ∀ v : Native, AnswersEncoded i v ⟨.notSupported, []⟩) ∧
  (∀ (k : Byte) (v : Native), (Instr.encodeUnknown k).WellFormed →
    AnswersEncoded (.encodeUnknown k) v ⟨.notSupported, []⟩) ∧
  Err.notSupported.code = 4

/-- R190: a value of the wrong shape for an encodable type answers IllegalCommand with no bytes. -/
def Obligations.EncodeWrongValueShape : Prop :=
  ∀ i ∈ encodableRows, ∀ v : Native, rightValueShape i v = false →
    AnswersEncoded i v ⟨.illegalCommand, []⟩

/-- R201: what decoding an encoded value gives, for every encodable type but DPT9: the value itself for DPT2, 3,
5, 7 and 14, the four fields for DPT10, and the day, the month and the folded year for DPT11. For DPT1 the direct
round trip does not give the value: it gives the bit minus 64, and the bit only once the action code is set. -/
def Obligations.EncodeDecodeRoundTrip : Prop :=
  (∀ (k : Byte) (i : Int) (P : Bytes) (ref : Ref), k = 2 ∨ k = 3 ∨ k = 5 ∨ k = 7 →
    encodeAs k (.int i) = ⟨.noError, P⟩ → decodeAs k P ref = ⟨.noError, k, some (.int i)⟩) ∧
  (∀ (w : Long) (P : Bytes) (ref : Ref),
    encodeAs 14 (.f32 w) = ⟨.noError, P⟩ → decodeAs 14 P ref = ⟨.noError, 14, some (.f32 w)⟩) ∧
  (∀ (wd h mi sec : Int) (P : Bytes) (ref : Ref), encodeAs 10 (.tuple4 wd h mi sec) = ⟨.noError, P⟩ →
    ∃ day, decodeAs 10 P ref =
      ⟨.noError, 10, some (.time wd.toNat h.toNat mi.toNat sec.toNat day)⟩) ∧
  (∀ (d mo y : Int) (P : Bytes) (ref : Ref), encodeAs 11 (.tuple3 d mo y) = ⟨.noError, P⟩ →
    decodeAs 11 P ref = ⟨.noError, 11, some (.date d.toNat mo.toNat
      (if y < 90 then 2000 + y.toNat else 1900 + y.toNat))⟩) ∧
  (∀ (b : Bool) (B : Byte) (ref : Ref), encodeAs 1 (.bool b) = ⟨.noError, [B]⟩ →
    decodeAs 1 [B] ref = ⟨.noError, 1, some (.int ((b.toNat : Int) - 64))⟩ ∧
    decodeAs 1 [0x80 ||| B] ref = ⟨.noError, 1, some (.int b.toNat)⟩ ∧
    decodeAs 1 [0x40 ||| B] ref = ⟨.noError, 1, some (.int b.toNat)⟩)

/-- R201: the DPT9 round trip errs by at most `2^e / 200`, and `e ≤ 1`, where that is at most 0.01, holds
exactly for `-40.97 ≤ q < 40.95`. -/
def Obligations.Dpt9RoundTripError : Prop :=
  ∀ (q : Rat) (P : Bytes) (ref : Ref), encodeAs 9 (.num q) = ⟨.noError, P⟩ →
    ∃ (m : Int) (e : Nat), decodeAs 9 P ref = ⟨.noError, 9, some (.busFloat m e)⟩ ∧
      |(m : Rat) * 2 ^ e / 100 - q| ≤ 2 ^ e / 200 ∧
      (e ≤ 1 ↔ (-4097 / 100 ≤ q ∧ q < 4095 / 100))

/-! # Control commands -/

/-- R73 and R221: any command whose operand record has the wrong shape answers IllegalCommand and changes
no state, before every other check. -/
def Obligations.WrongRecordShapeIsIllegal : Prop :=
  ∀ (i : Instr) (s : State), (encode i).1 = .cmd16 →
    rightRecordShape (hiByte (encode i).2) s.operand = false →
    exec i s = .next { s with result := some (.plain .illegalCommand) }

/-- R221: an illegal command answers IllegalCommand and changes no state, with any operand record and while
a fault is recorded. -/
def Obligations.IllegalChangesNothing : Prop :=
  ∀ (op arg : Byte) (s : State),
    exec (.illegal op arg) s = .next { s with result := some (.plain .illegalCommand) }

/-- R222 and R27: STATUS answers the status word with its fields in place and every other bit 0, the length
of the accumulator and the faulting frame, and changes no state. -/
def Obligations.StatusShowsRecord : Prop :=
  ∀ s : State, s.operand = .nothing →
    ∃ word : Long,
      exec .status s = .next { s with result := some (.status .noError word s.pending.length s.faultFrame) } ∧
      word.toNat = s.fault.toNat + 16 * s.faultCause.toNat + 256 * s.faultLen.toNat

/-- R223 and R261: RESET empties the accumulator and clears the whole record, whatever they hold, and
touches nothing else; every architectural field then has its value in a new instance. -/
def Obligations.ResetGivesNewInstance : Prop :=
  ∀ s : State, s.operand = .nothing →
    exec .reset s = .next { s with pending := State.reset.pending, fault := State.reset.fault,
                                   faultCause := State.reset.faultCause, faultLen := State.reset.faultLen,
                                   faultFrame := State.reset.faultFrame, result := some (.plain .noError) }

/-- R261: the reset value of every element of state, and what STATUS and PENDING_LEN then read. -/
def Obligations.ResetValues : Prop :=
  State.reset.pending = [] ∧ State.reset.fault = false ∧ State.reset.faultCause = 0 ∧
  State.reset.faultLen = 0 ∧ State.reset.faultFrame = [] ∧
  statusWord State.reset = 0 ∧ pendingLen State.reset = 0
end

