-- ==== Sys2Proof/Laws/PerInstr.lean ====
section
/-! SUPPORT. One law for every instruction as syntax: its own row decodes the word it encodes to. -/

namespace Sys2Proof

/-- The number of a word put together from two bytes. -/
@[simp] theorem toNat_wordOf (hi lo : Byte) : (wordOf hi lo).toNat = hi.toNat * 256 + lo.toNat := by
  have := hi.isLt
  have := lo.isLt
  simp only [wordOf, BitVec.toNat_ofNat]
  omega

/-- The number of a word's high byte. -/
theorem toNat_hiByte (w : Word) : (hiByte w).toNat = w.toNat / 256 := by
  have := w.isLt
  simp only [hiByte, BitVec.extractLsb'_toNat, Nat.shiftRight_eq_div_pow]
  omega

/-- The number of a word's low byte. -/
theorem toNat_loByte (w : Word) : (loByte w).toNat = w.toNat % 256 := by
  simp [loByte, BitVec.extractLsb'_toNat]

/-- The high byte of a word put together from two bytes. -/
@[simp] theorem hiByte_wordOf (hi lo : Byte) : hiByte (wordOf hi lo) = hi := by
  apply BitVec.eq_of_toNat_eq
  have := lo.isLt
  rw [toNat_hiByte, toNat_wordOf]
  omega

/-- The low byte of a word put together from two bytes. -/
@[simp] theorem loByte_wordOf (hi lo : Byte) : loByte (wordOf hi lo) = lo := by
  apply BitVec.eq_of_toNat_eq
  have := lo.isLt
  rw [toNat_loByte, toNat_wordOf]
  omega

/-- A word is put together from its own two bytes. -/
@[simp] theorem wordOf_hi_lo (w : Word) : wordOf (hiByte w) (loByte w) = w := by
  apply BitVec.eq_of_toNat_eq
  rw [toNat_wordOf, toNat_hiByte, toNat_loByte]
  omega

/-- A code names a type exactly when it is recognised (R81). -/
theorem ofCode_eq_none_iff (k : Byte) : Dpt.ofCode k = none ↔ recognisedCodes.contains k = false := by
  revert k; decide +kernel

/-- A type's code names it (R79). -/
@[simp] theorem ofCode_code (d : Dpt) : Dpt.ofCode d.code = some d := by cases d <;> rfl

/-- The type a code names has that code. -/
theorem code_of_ofCode {k : Byte} {d : Dpt} (h : Dpt.ofCode k = some d) : d.code = k := by
  have := List.find?_some h
  simpa using this

/-- Decoding a command word, field by field. -/
theorem decodeCommand_wordOf (op arg : Byte) : decodeCommand (wordOf op arg) =
    if op = 0x01 ∧ arg = 0 then .feed
    else if op = 0x02 then (match Dpt.ofCode arg with | some d => decodeAsRow d | none => .decodeAsUnknown arg)
    else if op = 0x03 then .decodeGuess arg
    else if op = 0x04 then (match Dpt.ofCode arg with | some d => encodeRow d | none => .encodeUnknown arg)
    else if op = 0x05 ∧ arg = 0 then .status
    else if op = 0x06 ∧ arg = 0 then .reset
    else .illegal op arg := by
  simp only [decodeCommand, hiByte_wordOf, loByte_wordOf] <;> rfl

end Sys2Proof

namespace Sys2Proof.Laws.RoundTrip

/-- The row of a well-formed instruction decodes the instruction's own word to it (R92). -/
def Statement (i : Instr) : Prop := i.WellFormed → decode (encode i).1 (encode i).2 = .ok i

theorem feed : Statement .feed := by
  unfold Statement; decide

theorem decodeAsDpt1 : Statement .decodeAsDpt1 := by
  unfold Statement; decide

theorem decodeAsDpt2 : Statement .decodeAsDpt2 := by
  unfold Statement; decide

theorem decodeAsDpt3 : Statement .decodeAsDpt3 := by
  unfold Statement; decide

theorem decodeAsDpt4 : Statement .decodeAsDpt4 := by
  unfold Statement; decide

theorem decodeAsDpt5 : Statement .decodeAsDpt5 := by
  unfold Statement; decide

theorem decodeAsDpt6 : Statement .decodeAsDpt6 := by
  unfold Statement; decide

theorem decodeAsDpt7 : Statement .decodeAsDpt7 := by
  unfold Statement; decide

theorem decodeAsDpt8 : Statement .decodeAsDpt8 := by
  unfold Statement; decide

theorem decodeAsDpt9 : Statement .decodeAsDpt9 := by
  unfold Statement; decide

theorem decodeAsDpt10 : Statement .decodeAsDpt10 := by
  unfold Statement; decide

theorem decodeAsDpt11 : Statement .decodeAsDpt11 := by
  unfold Statement; decide

theorem decodeAsDpt12 : Statement .decodeAsDpt12 := by
  unfold Statement; decide

theorem decodeAsDpt13 : Statement .decodeAsDpt13 := by
  unfold Statement; decide

theorem decodeAsDpt14 : Statement .decodeAsDpt14 := by
  unfold Statement; decide

theorem decodeAsDpt16 : Statement .decodeAsDpt16 := by
  unfold Statement; decide

theorem decodeAsDpt232 : Statement .decodeAsDpt232 := by
  unfold Statement; decide

theorem decodeAsUnknown (k : Byte) : Statement (.decodeAsUnknown k) := by
  intro h
  have hk : Dpt.ofCode k = none := (ofCode_eq_none_iff k).2 (by simpa [Instr.WellFormed, Instr.wellFormed] using h)
  simp [encode, decode, decodeCommand_wordOf, hk]

theorem decodeGuess (n : Byte) : Statement (.decodeGuess n) := by
  intro _
  simp [encode, decode, decodeCommand_wordOf]

theorem encodeDpt1 : Statement .encodeDpt1 := by
  unfold Statement; decide

theorem encodeDpt2 : Statement .encodeDpt2 := by
  unfold Statement; decide

theorem encodeDpt3 : Statement .encodeDpt3 := by
  unfold Statement; decide

theorem encodeDpt5 : Statement .encodeDpt5 := by
  unfold Statement; decide

theorem encodeDpt7 : Statement .encodeDpt7 := by
  unfold Statement; decide

theorem encodeDpt9 : Statement .encodeDpt9 := by
  unfold Statement; decide

theorem encodeDpt10 : Statement .encodeDpt10 := by
  unfold Statement; decide

theorem encodeDpt11 : Statement .encodeDpt11 := by
  unfold Statement; decide

theorem encodeDpt14 : Statement .encodeDpt14 := by
  unfold Statement; decide

theorem encodeDpt4 : Statement .encodeDpt4 := by
  unfold Statement; decide

theorem encodeDpt6 : Statement .encodeDpt6 := by
  unfold Statement; decide

theorem encodeDpt8 : Statement .encodeDpt8 := by
  unfold Statement; decide

theorem encodeDpt12 : Statement .encodeDpt12 := by
  unfold Statement; decide

theorem encodeDpt13 : Statement .encodeDpt13 := by
  unfold Statement; decide

theorem encodeDpt16 : Statement .encodeDpt16 := by
  unfold Statement; decide

theorem encodeDpt232 : Statement .encodeDpt232 := by
  unfold Statement; decide

theorem encodeUnknown (k : Byte) : Statement (.encodeUnknown k) := by
  intro h
  have hk : Dpt.ofCode k = none := (ofCode_eq_none_iff k).2 (by simpa [Instr.WellFormed, Instr.wellFormed] using h)
  simp [encode, decode, decodeCommand_wordOf, hk]

theorem status : Statement .status := by
  unfold Statement; decide

theorem reset : Statement .reset := by
  unfold Statement; decide

theorem illegal (op arg : Byte) : Statement (.illegal op arg) := by
  intro h
  have hl : legalCommand op arg = false := by simpa [Instr.WellFormed, Instr.wellFormed] using h
  simp only [legalCommand, Bool.or_eq_false_iff, Bool.and_eq_false_iff, beq_eq_false_iff_ne] at hl
  obtain ⟨⟨⟨hz, h2⟩, h3⟩, h4⟩ := hl
  simp only [encode, decode, decodeCommand_wordOf]
  rw [if_neg, if_neg h2, if_neg h3, if_neg h4, if_neg, if_neg] <;> rintro ⟨rfl, rfl⟩ <;> simp at hz

theorem frameShort (b : BitVec 1) : Statement (.frameShort b) := by
  revert b; unfold Statement; decide

theorem frameConfirm : Statement .frameConfirm := by
  unfold Statement; decide

theorem frameAck : Statement .frameAck := by
  unfold Statement; decide

theorem frameMalformed (j : BitVec 2) : Statement (.frameMalformed j) := by
  revert j; unfold Statement; decide

theorem frameTelegram (n : Byte) : Statement (.frameTelegram n) := by
  intro h
  have hn : 8 ≤ n.toNat := by simpa [Instr.WellFormed, Instr.wellFormed] using h
  have h2 : n ≠ 2 := by rintro rfl; simp at hn
  have h3 : n ≠ 3 := by rintro rfl; simp at hn
  simp only [encode, decode, decodeFrameLen, hiByte_wordOf, loByte_wordOf]
  rw [if_pos trivial, if_neg (by omega), if_neg h2, if_neg h3, if_neg (by omega)]

theorem telegramReadPure : Statement .telegramReadPure := by
  unfold Statement; decide

theorem telegramWriteEmb (b : BitVec 1) : Statement (.telegramWriteEmb b) := by
  revert b; unfold Statement; decide

theorem telegramResponseEmb (b : BitVec 1) : Statement (.telegramResponseEmb b) := by
  revert b; unfold Statement; decide

theorem telegramUnknownEmb (c : Byte) : Statement (.telegramUnknownEmb c) := by
  intro h
  have hc : ∀ a ∈ actionBytes, c ≠ a := by
    rintro a ha rfl
    simp [Instr.WellFormed, Instr.wellFormed, List.contains_eq_mem, ha] at h
  simp only [encode, decode, decodeEmbedded, hiByte_wordOf, loByte_wordOf]
  rw [if_pos trivial, if_neg (hc _ (by simp [actionBytes])), if_neg, if_neg]
  · rintro (h | h)
    · exact hc _ (by simp [actionBytes]) h
    · exact hc _ (by simp [actionBytes]) h
  · rintro (h | h)
    · exact hc _ (by simp [actionBytes]) h
    · exact hc _ (by simp [actionBytes]) h

theorem telegramReadExt : Statement .telegramReadExt := by
  unfold Statement; decide

theorem telegramWriteExt (b : BitVec 1) : Statement (.telegramWriteExt b) := by
  revert b; unfold Statement; decide

theorem telegramResponseExt (b : BitVec 1) : Statement (.telegramResponseExt b) := by
  revert b; unfold Statement; decide

theorem telegramUnknownExt (c : Byte) : Statement (.telegramUnknownExt c) := by
  intro h
  have hc : ∀ a ∈ actionBytes, c ≠ a := by
    rintro a ha rfl
    simp [Instr.WellFormed, Instr.wellFormed, List.contains_eq_mem, ha] at h
  simp only [encode, decode, decodeExtended, hiByte_wordOf, loByte_wordOf]
  rw [if_pos trivial, if_neg (hc _ (by simp [actionBytes])), if_neg, if_neg]
  · rintro (h | h)
    · exact hc _ (by simp [actionBytes]) h
    · exact hc _ (by simp [actionBytes]) h
  · rintro (h | h)
    · exact hc _ (by simp [actionBytes]) h
    · exact hc _ (by simp [actionBytes]) h

end Sys2Proof.Laws.RoundTrip
end

