-- ==== Sys2Proof/Laws/State.lean ====
section
/-! SUPPORT. What each named update does to each field of the state, true by definition. -/

namespace Sys2Proof.Machine

/-! ## `reply` -/

@[simp] theorem reply_pending (s : State) (r : Result) : (State.reply s r).pending = s.pending := rfl
@[simp] theorem reply_fault (s : State) (r : Result) : (State.reply s r).fault = s.fault := rfl
@[simp] theorem reply_faultCause (s : State) (r : Result) : (State.reply s r).faultCause = s.faultCause := rfl
@[simp] theorem reply_faultLen (s : State) (r : Result) : (State.reply s r).faultLen = s.faultLen := rfl
@[simp] theorem reply_faultFrame (s : State) (r : Result) : (State.reply s r).faultFrame = s.faultFrame := rfl
@[simp] theorem reply_pendingCap (s : State) (r : Result) : (State.reply s r).pendingCap = s.pendingCap := rfl
@[simp] theorem reply_port (s : State) (r : Result) : (State.reply s r).port = s.port := rfl
@[simp] theorem reply_operand (s : State) (r : Result) : (State.reply s r).operand = s.operand := rfl
@[simp] theorem reply_lookup (s : State) (r : Result) : (State.reply s r).lookup = s.lookup := rfl
@[simp] theorem reply_ref (s : State) (r : Result) : (State.reply s r).ref = s.ref := rfl
@[simp] theorem reply_events (s : State) (r : Result) : (State.reply s r).events = s.events := rfl
@[simp] theorem reply_result (s : State) (r : Result) : (State.reply s r).result = some r := rfl

/-! ## `setPending` -/

@[simp] theorem setPending_pending (s : State) (bs : Bytes) : (State.setPending s bs).pending = bs := rfl
@[simp] theorem setPending_fault (s : State) (bs : Bytes) : (State.setPending s bs).fault = s.fault := rfl
@[simp] theorem setPending_faultCause (s : State) (bs : Bytes) : (State.setPending s bs).faultCause = s.faultCause := rfl
@[simp] theorem setPending_faultLen (s : State) (bs : Bytes) : (State.setPending s bs).faultLen = s.faultLen := rfl
@[simp] theorem setPending_faultFrame (s : State) (bs : Bytes) : (State.setPending s bs).faultFrame = s.faultFrame := rfl
@[simp] theorem setPending_pendingCap (s : State) (bs : Bytes) : (State.setPending s bs).pendingCap = s.pendingCap := rfl
@[simp] theorem setPending_port (s : State) (bs : Bytes) : (State.setPending s bs).port = s.port := rfl
@[simp] theorem setPending_operand (s : State) (bs : Bytes) : (State.setPending s bs).operand = s.operand := rfl
@[simp] theorem setPending_lookup (s : State) (bs : Bytes) : (State.setPending s bs).lookup = s.lookup := rfl
@[simp] theorem setPending_ref (s : State) (bs : Bytes) : (State.setPending s bs).ref = s.ref := rfl
@[simp] theorem setPending_events (s : State) (bs : Bytes) : (State.setPending s bs).events = s.events := rfl
@[simp] theorem setPending_result (s : State) (bs : Bytes) : (State.setPending s bs).result = s.result := rfl

/-! ## `setFaultRecord` -/

@[simp] theorem setFaultRecord_pending (s : State) (T : Nat) (F : Bytes) : (State.setFaultRecord s T F).pending = s.pending := rfl
@[simp] theorem setFaultRecord_fault (s : State) (T : Nat) (F : Bytes) : (State.setFaultRecord s T F).fault = true := rfl
@[simp] theorem setFaultRecord_faultCause (s : State) (T : Nat) (F : Bytes) : (State.setFaultRecord s T F).faultCause = Err.malformedFrame.code := rfl
@[simp] theorem setFaultRecord_faultLen (s : State) (T : Nat) (F : Bytes) : (State.setFaultRecord s T F).faultLen = BitVec.ofNat 9 T := rfl
@[simp] theorem setFaultRecord_faultFrame (s : State) (T : Nat) (F : Bytes) : (State.setFaultRecord s T F).faultFrame = F := rfl
@[simp] theorem setFaultRecord_pendingCap (s : State) (T : Nat) (F : Bytes) : (State.setFaultRecord s T F).pendingCap = s.pendingCap := rfl
@[simp] theorem setFaultRecord_port (s : State) (T : Nat) (F : Bytes) : (State.setFaultRecord s T F).port = s.port := rfl
@[simp] theorem setFaultRecord_operand (s : State) (T : Nat) (F : Bytes) : (State.setFaultRecord s T F).operand = s.operand := rfl
@[simp] theorem setFaultRecord_lookup (s : State) (T : Nat) (F : Bytes) : (State.setFaultRecord s T F).lookup = s.lookup := rfl
@[simp] theorem setFaultRecord_ref (s : State) (T : Nat) (F : Bytes) : (State.setFaultRecord s T F).ref = s.ref := rfl
@[simp] theorem setFaultRecord_events (s : State) (T : Nat) (F : Bytes) : (State.setFaultRecord s T F).events = s.events := rfl
@[simp] theorem setFaultRecord_result (s : State) (T : Nat) (F : Bytes) : (State.setFaultRecord s T F).result = s.result := rfl

/-! ## `clearFaultRecord` -/

@[simp] theorem clearFaultRecord_pending (s : State) : (State.clearFaultRecord s).pending = s.pending := rfl
@[simp] theorem clearFaultRecord_fault (s : State) : (State.clearFaultRecord s).fault = false := rfl
@[simp] theorem clearFaultRecord_faultCause (s : State) : (State.clearFaultRecord s).faultCause = 0 := rfl
@[simp] theorem clearFaultRecord_faultLen (s : State) : (State.clearFaultRecord s).faultLen = 0 := rfl
@[simp] theorem clearFaultRecord_faultFrame (s : State) : (State.clearFaultRecord s).faultFrame = [] := rfl
@[simp] theorem clearFaultRecord_pendingCap (s : State) : (State.clearFaultRecord s).pendingCap = s.pendingCap := rfl
@[simp] theorem clearFaultRecord_port (s : State) : (State.clearFaultRecord s).port = s.port := rfl
@[simp] theorem clearFaultRecord_operand (s : State) : (State.clearFaultRecord s).operand = s.operand := rfl
@[simp] theorem clearFaultRecord_lookup (s : State) : (State.clearFaultRecord s).lookup = s.lookup := rfl
@[simp] theorem clearFaultRecord_ref (s : State) : (State.clearFaultRecord s).ref = s.ref := rfl
@[simp] theorem clearFaultRecord_events (s : State) : (State.clearFaultRecord s).events = s.events := rfl
@[simp] theorem clearFaultRecord_result (s : State) : (State.clearFaultRecord s).result = s.result := rfl

/-! ## `emit` -/

@[simp] theorem emit_pending (s : State) (evs : List Event) : (State.emit s evs).pending = s.pending := rfl
@[simp] theorem emit_fault (s : State) (evs : List Event) : (State.emit s evs).fault = s.fault := rfl
@[simp] theorem emit_faultCause (s : State) (evs : List Event) : (State.emit s evs).faultCause = s.faultCause := rfl
@[simp] theorem emit_faultLen (s : State) (evs : List Event) : (State.emit s evs).faultLen = s.faultLen := rfl
@[simp] theorem emit_faultFrame (s : State) (evs : List Event) : (State.emit s evs).faultFrame = s.faultFrame := rfl
@[simp] theorem emit_pendingCap (s : State) (evs : List Event) : (State.emit s evs).pendingCap = s.pendingCap := rfl
@[simp] theorem emit_port (s : State) (evs : List Event) : (State.emit s evs).port = s.port := rfl
@[simp] theorem emit_operand (s : State) (evs : List Event) : (State.emit s evs).operand = s.operand := rfl
@[simp] theorem emit_lookup (s : State) (evs : List Event) : (State.emit s evs).lookup = s.lookup := rfl
@[simp] theorem emit_ref (s : State) (evs : List Event) : (State.emit s evs).ref = s.ref := rfl
@[simp] theorem emit_events (s : State) (evs : List Event) : (State.emit s evs).events = s.events ++ evs := rfl
@[simp] theorem emit_result (s : State) (evs : List Event) : (State.emit s evs).result = s.result := rfl

/-! ## `raiseMalformedFrame` -/

@[simp] theorem raiseMalformedFrame_pending (T : Nat) (F : Bytes) (s : State) : (raiseMalformedFrame T F s).pending = s.pending := rfl
@[simp] theorem raiseMalformedFrame_fault (T : Nat) (F : Bytes) (s : State) : (raiseMalformedFrame T F s).fault = true := rfl
@[simp] theorem raiseMalformedFrame_faultCause (T : Nat) (F : Bytes) (s : State) : (raiseMalformedFrame T F s).faultCause = Err.malformedFrame.code := rfl
@[simp] theorem raiseMalformedFrame_faultLen (T : Nat) (F : Bytes) (s : State) : (raiseMalformedFrame T F s).faultLen = BitVec.ofNat 9 T := rfl
@[simp] theorem raiseMalformedFrame_faultFrame (T : Nat) (F : Bytes) (s : State) : (raiseMalformedFrame T F s).faultFrame = F := rfl
@[simp] theorem raiseMalformedFrame_pendingCap (T : Nat) (F : Bytes) (s : State) : (raiseMalformedFrame T F s).pendingCap = s.pendingCap := rfl
@[simp] theorem raiseMalformedFrame_port (T : Nat) (F : Bytes) (s : State) : (raiseMalformedFrame T F s).port = s.port := rfl
@[simp] theorem raiseMalformedFrame_operand (T : Nat) (F : Bytes) (s : State) : (raiseMalformedFrame T F s).operand = s.operand := rfl
@[simp] theorem raiseMalformedFrame_lookup (T : Nat) (F : Bytes) (s : State) : (raiseMalformedFrame T F s).lookup = s.lookup := rfl
@[simp] theorem raiseMalformedFrame_ref (T : Nat) (F : Bytes) (s : State) : (raiseMalformedFrame T F s).ref = s.ref := rfl
@[simp] theorem raiseMalformedFrame_events (T : Nat) (F : Bytes) (s : State) : (raiseMalformedFrame T F s).events = s.events := rfl
@[simp] theorem raiseMalformedFrame_result (T : Nat) (F : Bytes) (s : State) : (raiseMalformedFrame T F s).result = s.result := rfl

/-! ## `resetBlock` -/

@[simp] theorem resetBlock_pending (s : State) : (resetBlock s).pending = [] := rfl
@[simp] theorem resetBlock_fault (s : State) : (resetBlock s).fault = false := rfl
@[simp] theorem resetBlock_faultCause (s : State) : (resetBlock s).faultCause = 0 := rfl
@[simp] theorem resetBlock_faultLen (s : State) : (resetBlock s).faultLen = 0 := rfl
@[simp] theorem resetBlock_faultFrame (s : State) : (resetBlock s).faultFrame = [] := rfl
@[simp] theorem resetBlock_pendingCap (s : State) : (resetBlock s).pendingCap = s.pendingCap := rfl
@[simp] theorem resetBlock_port (s : State) : (resetBlock s).port = s.port := rfl
@[simp] theorem resetBlock_operand (s : State) : (resetBlock s).operand = s.operand := rfl
@[simp] theorem resetBlock_lookup (s : State) : (resetBlock s).lookup = s.lookup := rfl
@[simp] theorem resetBlock_ref (s : State) : (resetBlock s).ref = s.ref := rfl
@[simp] theorem resetBlock_events (s : State) : (resetBlock s).events = s.events := rfl
@[simp] theorem resetBlock_result (s : State) : (resetBlock s).result = s.result := rfl

/-! ## `beginFeed` -/

@[simp] theorem beginFeed_pending (chunk : Bytes) (r : Ref) (s : State) : (beginFeed chunk r s).pending = s.pending ++ chunk := rfl
@[simp] theorem beginFeed_fault (chunk : Bytes) (r : Ref) (s : State) : (beginFeed chunk r s).fault = s.fault := rfl
@[simp] theorem beginFeed_faultCause (chunk : Bytes) (r : Ref) (s : State) : (beginFeed chunk r s).faultCause = s.faultCause := rfl
@[simp] theorem beginFeed_faultLen (chunk : Bytes) (r : Ref) (s : State) : (beginFeed chunk r s).faultLen = s.faultLen := rfl
@[simp] theorem beginFeed_faultFrame (chunk : Bytes) (r : Ref) (s : State) : (beginFeed chunk r s).faultFrame = s.faultFrame := rfl
@[simp] theorem beginFeed_pendingCap (chunk : Bytes) (r : Ref) (s : State) : (beginFeed chunk r s).pendingCap = s.pendingCap := rfl
@[simp] theorem beginFeed_port (chunk : Bytes) (r : Ref) (s : State) : (beginFeed chunk r s).port = s.port := rfl
@[simp] theorem beginFeed_operand (chunk : Bytes) (r : Ref) (s : State) : (beginFeed chunk r s).operand = s.operand := rfl
@[simp] theorem beginFeed_lookup (chunk : Bytes) (r : Ref) (s : State) : (beginFeed chunk r s).lookup = s.lookup := rfl
@[simp] theorem beginFeed_ref (chunk : Bytes) (r : Ref) (s : State) : (beginFeed chunk r s).ref = r := rfl
@[simp] theorem beginFeed_events (chunk : Bytes) (r : Ref) (s : State) : (beginFeed chunk r s).events = [] := rfl
@[simp] theorem beginFeed_result (chunk : Bytes) (r : Ref) (s : State) : (beginFeed chunk r s).result = s.result := rfl

/-! ## `endFeed` -/

@[simp] theorem endFeed_pending (s : State) : (endFeed s).pending = s.pending := rfl
@[simp] theorem endFeed_fault (s : State) : (endFeed s).fault = s.fault := rfl
@[simp] theorem endFeed_faultCause (s : State) : (endFeed s).faultCause = s.faultCause := rfl
@[simp] theorem endFeed_faultLen (s : State) : (endFeed s).faultLen = s.faultLen := rfl
@[simp] theorem endFeed_faultFrame (s : State) : (endFeed s).faultFrame = s.faultFrame := rfl
@[simp] theorem endFeed_pendingCap (s : State) : (endFeed s).pendingCap = s.pendingCap := rfl
@[simp] theorem endFeed_port (s : State) : (endFeed s).port = s.port := rfl
@[simp] theorem endFeed_operand (s : State) : (endFeed s).operand = s.operand := rfl
@[simp] theorem endFeed_lookup (s : State) : (endFeed s).lookup = s.lookup := rfl
@[simp] theorem endFeed_ref (s : State) : (endFeed s).ref = s.ref := rfl
@[simp] theorem endFeed_events (s : State) : (endFeed s).events = [] := rfl
@[simp] theorem endFeed_result (s : State) : (endFeed s).result = some (.feed (if s.fault then .malformedFrame else .noError) s.events) := rfl

/-! ## `latchRequest` -/

@[simp] theorem latchRequest_pending (r : Request) (rest : List Request) (s : State) : (latchRequest r rest s).pending = s.pending := rfl
@[simp] theorem latchRequest_fault (r : Request) (rest : List Request) (s : State) : (latchRequest r rest s).fault = s.fault := rfl
@[simp] theorem latchRequest_faultCause (r : Request) (rest : List Request) (s : State) : (latchRequest r rest s).faultCause = s.faultCause := rfl
@[simp] theorem latchRequest_faultLen (r : Request) (rest : List Request) (s : State) : (latchRequest r rest s).faultLen = s.faultLen := rfl
@[simp] theorem latchRequest_faultFrame (r : Request) (rest : List Request) (s : State) : (latchRequest r rest s).faultFrame = s.faultFrame := rfl
@[simp] theorem latchRequest_pendingCap (r : Request) (rest : List Request) (s : State) : (latchRequest r rest s).pendingCap = s.pendingCap := rfl
@[simp] theorem latchRequest_port (r : Request) (rest : List Request) (s : State) : (latchRequest r rest s).port = rest := rfl
@[simp] theorem latchRequest_operand (r : Request) (rest : List Request) (s : State) : (latchRequest r rest s).operand = r.operand := rfl
@[simp] theorem latchRequest_lookup (r : Request) (rest : List Request) (s : State) : (latchRequest r rest s).lookup = r.lookup := rfl
@[simp] theorem latchRequest_ref (r : Request) (rest : List Request) (s : State) : (latchRequest r rest s).ref = s.ref := rfl
@[simp] theorem latchRequest_events (r : Request) (rest : List Request) (s : State) : (latchRequest r rest s).events = s.events := rfl
@[simp] theorem latchRequest_result (r : Request) (rest : List Request) (s : State) : (latchRequest r rest s).result = s.result := rfl

/-- An illegal command answers the error code and changes nothing else (R221). -/
@[simp] theorem illegalCommand_eq (s : State) : illegalCommand s = s.reply (.plain .illegalCommand) := rfl

end Sys2Proof.Machine
end

