-- ==== Sys2Proof/Laws/Ops.lean ====
section
/-! SUPPORT. What the shared operations answer: the front of the accumulator, taking a frame, and the
lookup. -/

namespace Sys2Proof.Machine

/-! ## The length field and the complete frame -/

/-- A length field is byte 1 of at least two bytes (R75). -/
theorem lengthField_eq_some {bs : Bytes} {n : Byte} :
    lengthField bs = some n ↔ ∃ a rest, bs = a :: n :: rest := by
  rcases bs with _ | ⟨a, _ | ⟨m, rest⟩⟩ <;> simp [lengthField, eq_comm]

/-- Fewer than two bytes have no length field (R101). -/
theorem lengthField_eq_none {bs : Bytes} : lengthField bs = none ↔ bs.length < 2 := by
  rcases bs with _ | ⟨a, _ | ⟨m, rest⟩⟩ <;> simp [lengthField]

/-- A complete frame is a length field with all its bytes (R101). -/
theorem completeFrame_eq_some {bs : Bytes} {n : Byte} :
    completeFrame bs = some n ↔ lengthField bs = some n ∧ frameTotal n ≤ bs.length := by
  unfold completeFrame
  cases h : lengthField bs with
  | none => simp
  | some m =>
    by_cases hm : frameTotal m ≤ bs.length
    · simp only [if_pos hm, Option.some.injEq]
      exact ⟨fun e => ⟨e, e ▸ hm⟩, And.left⟩
    · simp only [if_neg hm, Option.some.injEq, reduceCtorEq, false_iff, not_and]
      rintro rfl
      exact hm

/-- No complete frame, in the words of R22. -/
theorem completeFrame_eq_none {bs : Bytes} : completeFrame bs = none ↔ NoCompleteFrame bs := by
  unfold NoCompleteFrame
  constructor
  · intro h n hn
    by_contra hc
    have := completeFrame_eq_some.2 ⟨hn, Nat.le_of_not_lt hc⟩
    simp [h] at this
  · intro h
    cases hc : completeFrame bs with
    | none => rfl
    | some n =>
      have := completeFrame_eq_some.1 hc
      have := h n this.1
      omega

/-- No complete frame means at most 256 bytes (R22). -/
theorem NoCompleteFrame.length_le {bs : Bytes} (h : NoCompleteFrame bs) : bs.length ≤ 256 := by
  cases hl : lengthField bs with
  | none => have := lengthField_eq_none.1 hl; omega
  | some n =>
    have := h n hl
    have := n.isLt
    unfold frameTotal at *
    omega

/-- The length field does not change when bytes follow. -/
theorem lengthField_append {bs : Bytes} {n : Byte} (more : Bytes) (h : lengthField bs = some n) :
    lengthField (bs ++ more) = some n := by
  obtain ⟨a, rest, rfl⟩ := lengthField_eq_some.1 h
  rfl

/-- A complete frame stays the frame at the front when bytes follow (R101). -/
theorem completeFrame_append {bs : Bytes} {n : Byte} (more : Bytes) (h : completeFrame bs = some n) :
    completeFrame (bs ++ more) = some n := by
  obtain ⟨hl, ht⟩ := completeFrame_eq_some.1 h
  refine completeFrame_eq_some.2 ⟨lengthField_append more hl, ?_⟩
  simp only [List.length_append]
  omega

/-! ## Taking a frame -/

/-- A frame that is all there is taken off the front (R102). -/
theorem takeFrame_of_le {T : Nat} {s : State} (h : T ≤ s.pending.length) :
    takeFrame T s = some (s.pending.take T, s.setPending (s.pending.drop T)) := if_pos h

/-- A frame that is not all there is not taken (R101). -/
theorem takeFrame_of_lt {T : Nat} {s : State} (h : s.pending.length < T) : takeFrame T s = none :=
  if_neg (Nat.not_le_of_lt h)

/-! ## The capacity -/

/-- Fewer bytes fit where more did (R23). -/
theorem fitsPending_mono {cap : Option Nat} {a b : Nat} (hab : a ≤ b) (h : fitsPending cap b = true) :
    fitsPending cap a = true := by
  cases cap with
  | none => rfl
  | some c =>
    simp only [fitsPending, decide_eq_true_eq] at *
    omega

/-! ## The lookup (R30) -/

/-- After `set`, `get` answers the new code for that key and the old one for every other. -/
theorem lookup_get_set (L : Lookup) (key key' : String) (dpt : Byte) :
    Lookup.get (Lookup.set L key dpt) key' = if key = key' then some dpt else Lookup.get L key' := by
  induction L with
  | nil => simp [Lookup.set, Lookup.get]
  | cons p rest ih =>
    obtain ⟨k, d⟩ := p
    by_cases hk : k = key
    · subst hk
      simp only [Lookup.set, if_true, Lookup.get]
      split <;> rfl
    · simp only [Lookup.set, if_neg hk, Lookup.get, ih]
      by_cases h1 : k = key'
      · subst h1; simp [Ne.symm hk]
      · simp [h1]

end Sys2Proof.Machine
end

