-- ==== Sys2Proof/Laws/Codec.lean ====
section
/-! SUPPORT. What the codec's shared operations answer (`41_decode.md` R140, `42_guess.md` R180,
`43_encode.md` R190). -/

namespace Sys2Proof.Machine

/-! ## Bytes and words -/

/-- The number of a big-endian 16-bit field (R9). -/
theorem toNat_u16be (F : Bytes) (i : Nat) :
    (u16be F i).toNat = (byteAt F i).toNat * 256 + (byteAt F (i + 1)).toNat := by
  simp [u16be]

/-- The number of a big-endian 32-bit field (R9). -/
theorem toNat_u32be (F : Bytes) (i : Nat) :
    (u32be F i).toNat = (byteAt F i).toNat * 2 ^ 24 + (byteAt F (i + 1)).toNat * 2 ^ 16
      + (byteAt F (i + 2)).toNat * 2 ^ 8 + (byteAt F (i + 3)).toNat := by
  have := (byteAt F i).isLt
  have := (byteAt F (i + 1)).isLt
  have := (byteAt F (i + 2)).isLt
  have := (byteAt F (i + 3)).isLt
  simp only [u32be, BitVec.toNat_ofNat]
  omega

@[simp] theorem byteAt_cons_zero (a : Byte) (F : Bytes) : byteAt (a :: F) 0 = a := rfl

@[simp] theorem byteAt_cons_succ (a : Byte) (F : Bytes) (i : Nat) : byteAt (a :: F) (i + 1) = byteAt F i := rfl

/-- A bit field of a byte, as division and remainder (R8). -/
theorem bits_eq (b : Byte) (hi lo : Nat) : bits b hi lo = b.toNat / 2 ^ lo % 2 ^ (hi + 1 - lo) := by
  simp [bits, BitVec.extractLsb'_toNat, Nat.shiftRight_eq_div_pow]

/-! ## Decode -/

/-- A decode as a recognised code (R140). -/
@[simp] theorem decodeAs_code (d : Dpt) (P : Bytes) (ref : Ref) :
    decodeAs d.code P ref = decodeSized d P ref := by
  simp [decodeAs]

/-- A payload of the type's size gives its value (R140). -/
theorem decodeSized_of_length {d : Dpt} {P : Bytes} (h : P.length = dptSize d) (ref : Ref) :
    decodeSized d P ref = ⟨.noError, d.code, some (decDpt d P ref)⟩ := if_pos h

/-- A payload of another size gives LengthMismatch (R140). -/
theorem decodeSized_of_length_ne {d : Dpt} {P : Bytes} (h : P.length ≠ dptSize d) (ref : Ref) :
    decodeSized d P ref = ⟨.lengthMismatch, d.code, none⟩ := if_neg h

/-- An unknown code (R140). -/
theorem decodeAs_unknown {k : Byte} (h : recognisedCodes.contains k = false) (P : Bytes) (ref : Ref) :
    decodeAs k P ref = ⟨.unknownDatapointType, k, none⟩ := by
  simp [decodeAs, (ofCode_eq_none_iff k).2 h, decodeFailed]

/-- A decode with a known type is never partially filled (R12). -/
theorem decodeSized_filled (d : Dpt) (P : Bytes) (ref : Ref) : (decodeSized d P ref).Filled := by
  unfold decodeSized
  split <;> simp [Decoded.Filled, decodeFailed]

/-- A guess is never partially filled (R12). -/
theorem guess_filled (d : Dpt) (P : Bytes) (size : Nat) (f : Bytes → Value) : (guess d P size f).Filled := by
  unfold guess
  split <;> simp [Decoded.Filled, decodeFailed]

/-! ## Encode -/

/-- An encode as a recognised code (R190). -/
@[simp] theorem encodeAs_code (d : Dpt) (v : Native) :
    encodeAs d.code v = match encoderOf d with
      | some enc => enc v
      | none => encodeFailed .notSupported := by
  cases d <;> rfl

/-- An unknown code (R190). -/
theorem encodeAs_unknown {k : Byte} (h : recognisedCodes.contains k = false) (v : Native) :
    encodeAs k v = ⟨.notSupported, []⟩ := by
  simp [encodeAs, (ofCode_eq_none_iff k).2 h, encodeFailed]

/-- The number of the byte of an integer in range. -/
theorem toNat_byteOf {i : Int} (h0 : 0 ≤ i) (h1 : i ≤ 255) : ((byteOf i).toNat : Int) = i := by
  simp only [byteOf, BitVec.toNat_ofInt]
  omega

/-! ## The codec commands -/

/-- DECODE_AS with its operand shape (R141). -/
theorem decodeAsCommand_of {k : Byte} {s : State} {P : Bytes} {ref : Ref} (h : s.operand = .bytesRef P ref) :
    decodeAsCommand k s = s.reply (.decoded (decodeAs k P ref)) := by
  simp only [decodeAsCommand, h]

/-- DECODE_GUESS with its operand shape (R185). -/
theorem decodeGuessCommand_of {n : Byte} {s : State} {P : Bytes} (h : s.operand = .bytes P) :
    decodeGuessCommand n s = s.reply (.decoded (decodeGuessed n P)) := by
  simp only [decodeGuessCommand, h]

/-- ENCODE with its operand shape (R200). -/
theorem encodeCommand_of {k : Byte} {s : State} {v : Native} (h : s.operand = .value v) :
    encodeCommand k s = s.reply (.encoded (encodeAs k v)) := by
  simp only [encodeCommand, h]

/-- DECODE_AS answers with a result record and changes nothing else (R36). -/
theorem decodeAsCommand_cases (k : Byte) (s : State) : ∃ r, decodeAsCommand k s = s.reply r := by
  unfold decodeAsCommand
  split <;> exact ⟨_, rfl⟩

/-- DECODE_GUESS answers with a result record and changes nothing else (R36). -/
theorem decodeGuessCommand_cases (n : Byte) (s : State) : ∃ r, decodeGuessCommand n s = s.reply r := by
  unfold decodeGuessCommand
  split <;> exact ⟨_, rfl⟩

/-- ENCODE answers with a result record and changes nothing else (R36). -/
theorem encodeCommand_cases (k : Byte) (s : State) : ∃ r, encodeCommand k s = s.reply r := by
  unfold encodeCommand
  split <;> exact ⟨_, rfl⟩

end Sys2Proof.Machine
end

