-- ==== Sys2Proof/Laws/BusFloat.lean ====
section
/-! SUPPORT. DPT9 in numbers: the fields of a word, the word of its fields, the rounded mantissa as an
inequality, and when an exponent fits (`30_encoding.md` R83, `41_decode.md` R150, `43_encode.md` R196). -/

namespace Sys2Proof.Machine

/-- The fields of a DPT9 word by division and remainder (R83). -/
theorem busFloatOf_eq (w : Word) :
    busFloatOf w = .busFloat ((w.toNat % 2048 : Nat) - 2048 * (w.toNat / 32768 : Nat))
      (w.toNat / 2048 % 16) := by
  have hw := w.isLt
  have hs : (if w.getLsbD 15 then (1 : Int) else 0) = (w.toNat / 32768 : Nat) := by
    rw [← BitVec.testBit_toNat, Nat.testBit_eq_decide_div_mod_eq]
    by_cases h : w.toNat / 2 ^ 15 % 2 = 1
    · rw [if_pos (by simpa using h)]; omega
    · rw [if_neg (by simpa using h)]; omega
  simp only [busFloatOf, hs, BitVec.extractLsb'_toNat, Nat.shiftRight_eq_div_pow, Nat.pow_zero, Nat.div_one]

/-- The number of the word of a mantissa and an exponent that fit (R83). -/
theorem toNat_busFloatWord {m : Int} {e : Nat} (h1 : -2048 ≤ m) (h2 : m ≤ 2047) (he : e < 16) :
    (busFloatWord m e).toNat = (if m < 0 then 32768 else 0) + 2048 * e + (m % 2048).toNat := by
  have hm : (BitVec.ofInt 16 m &&& 0x7FF).toNat = (m % 2048).toNat := by
    rw [BitVec.toNat_and, show (0x7FF : BitVec 16).toNat = 2 ^ 11 - 1 from rfl,
      Nat.and_two_pow_sub_one_eq_mod, BitVec.toNat_ofInt]
    omega
  have hs : ((if m < 0 then 1 else 0 : Word) <<< 15).toNat = (if m < 0 then 1 else 0) <<< 15 := by
    split <;> rfl
  have hE : (BitVec.ofNat 16 e <<< 11).toNat = e <<< 11 := by
    rw [BitVec.toNat_shiftLeft, BitVec.toNat_ofNat, Nat.mod_eq_of_lt (by omega : e < 2 ^ 16),
      Nat.mod_eq_of_lt (by rw [Nat.shiftLeft_eq]; omega)]
  have hlt : e <<< 11 + (m % 2048).toNat < 2 ^ 15 := by rw [Nat.shiftLeft_eq]; omega
  simp only [busFloatWord]
  rw [BitVec.toNat_or, BitVec.toNat_or, hm, hs, hE, Nat.or_assoc,
    ← Nat.shiftLeft_add_eq_or_of_lt (by omega : (m % 2048).toNat < 2 ^ 11),
    ← Nat.shiftLeft_add_eq_or_of_lt hlt]
  simp only [Nat.shiftLeft_eq]
  split <;> omega

/-- The rounded mantissa is the integer within half a step, a tie upward (R10, R196). -/
theorem mantissaAt_eq_iff (q : Rat) (e : Nat) (m : Int) :
    mantissaAt q e = m ↔
      (2 ^ e : Rat) * (2 * (m : Rat) - 1) ≤ 200 * q ∧ 200 * q < (2 ^ e : Rat) * (2 * (m : Rat) + 1) := by
  have hp : (0 : Rat) < 2 ^ e := by positivity
  show ⌊100 * q / ((2 ^ e : Nat) : Rat) + 1 / 2⌋ = m ↔ _
  have hx : 100 * q / ((2 ^ e : Nat) : Rat) + 1 / 2 = (200 * q + 2 ^ e) / (2 * 2 ^ e) := by
    push_cast; field_simp; ring
  rw [Int.floor_eq_iff, hx, le_div_iff₀ (by positivity), div_lt_iff₀ (by positivity)]
  constructor <;> rintro ⟨a, b⟩ <;> constructor <;> linarith

/-- An exponent fits exactly when the value is within its range (R196). -/
theorem mantissaFits_iff (q : Rat) (e : Nat) :
    mantissaFits (mantissaAt q e) = true ↔ -4097 * 2 ^ e ≤ 200 * q ∧ 200 * q < 4095 * 2 ^ e := by
  have hp : (0 : Rat) < 2 ^ e := by positivity
  obtain ⟨a, b⟩ := (mantissaAt_eq_iff q e _).1 rfl
  generalize mantissaAt q e = m at *
  simp only [mantissaFits, Bool.and_eq_true, decide_eq_true_eq]
  constructor
  · rintro ⟨h1, h2⟩
    have h1' : (-2048 : Rat) ≤ m := by exact_mod_cast h1
    have h2' : (m : Rat) ≤ 2047 := by exact_mod_cast h2
    constructor <;> nlinarith
  · rintro ⟨h1, h2⟩
    constructor
    · by_contra h
      have : (m : Rat) ≤ -2049 := by exact_mod_cast (by omega : m ≤ -2049)
      nlinarith
    · by_contra h
      have : (2048 : Rat) ≤ m := by exact_mod_cast (by omega : 2048 ≤ m)
      nlinarith

/-- What DPT9 encode answers (R196): the word at the smallest exponent that fits, or OutOfRange. -/
theorem encDpt9_cases (q : Rat) :
    (∃ e < 16, mantissaFits (mantissaAt q e) = true ∧ (∀ e' < e, mantissaFits (mantissaAt q e') = false) ∧
      encDpt9 q = ⟨.noError, bytesOfWord (busFloatWord (mantissaAt q e) e)⟩) ∨
    ((∀ e < 16, mantissaFits (mantissaAt q e) = false) ∧ encDpt9 q = ⟨.outOfRange, []⟩) := by
  cases h : (List.range 16).find? (fun e => mantissaFits (mantissaAt q e)) with
  | none =>
    refine .inr ⟨by simpa using h, ?_⟩
    simp only [encDpt9, h, encodeFailed]
  | some e =>
    obtain ⟨hf, he, hn⟩ := List.find?_range_eq_some.1 h
    refine .inl ⟨e, by simpa using he, hf, fun e' he' => by simpa using hn e' he', ?_⟩
    simp only [encDpt9, h, encoded]

end Sys2Proof.Machine
end

