-- ==== Sys2Proof/Laws/Frame.lean ====
section
/-! SUPPORT. What a frame row and one pass of the drain loop do, said once: if the frame is complete, it is
consumed, and it is silent, or raises the fault, or emits a telegram's events (`40_frame_splitter.md` R101
to R114). -/

namespace Sys2Proof.Machine

/-- The events of a telegram `F` with length field `n` (R111, R113, R114). -/
def telegramEvents (L : Lookup) (ref : Ref) (n : Byte) (F : Bytes) : List Event :=
  if n = 8 ∧ controlOf F = 0 then pureReadEvents F
  else decodePathEvents L ref n (actionOf (controlOf F)) F

/-! ## Shared operations -/

/-- A frame that is all there is consumed silently (R105). -/
theorem consumeSilently_of_le {T : Nat} {s : State} (h : T ≤ s.pending.length) :
    consumeSilently T s = s.setPending (s.pending.drop T) := by
  simp only [consumeSilently, takeFrame_of_le h]

/-- A frame that is not all there stays (R101). -/
theorem consumeSilently_of_lt {T : Nat} {s : State} (h : s.pending.length < T) : consumeSilently T s = s := by
  simp only [consumeSilently, takeFrame_of_lt h]

/-- A telegram that is all there is consumed and emits its events (R102). -/
theorem consumeTelegram_of_le {n : Byte} {s : State} (f : Bytes → List Event)
    (h : frameTotal n ≤ s.pending.length) :
    consumeTelegram n f s =
      (s.setPending (s.pending.drop (frameTotal n))).emit (f (s.pending.take (frameTotal n))) := by
  simp only [consumeTelegram, takeFrame_of_le h]

/-- A telegram that is not all there stays (R101). -/
theorem consumeTelegram_of_lt {n : Byte} {s : State} (f : Bytes → List Event)
    (h : s.pending.length < frameTotal n) : consumeTelegram n f s = s := by
  simp only [consumeTelegram, takeFrame_of_lt h]

/-- A malformed frame that is all there is consumed and raises the fault (R106). -/
theorem runFrameMalformed_of_le {j : BitVec 2} {s : State} (h : j.toNat + 6 ≤ s.pending.length) :
    runFrameMalformed j s = raiseMalformedFrame (j.toNat + 6) (s.pending.take (j.toNat + 6))
      (s.setPending (s.pending.drop (j.toNat + 6))) := by
  simp only [runFrameMalformed, takeFrame_of_le h]

/-- An extended telegram row reads its length field from the frame (R92). -/
theorem extendedTelegram_of {act : Action} {s : State} {n : Byte} (hl : lengthField s.pending = some n)
    (hn : 9 ≤ n.toNat) :
    extendedTelegram act s = consumeTelegram n (decodePathEvents s.lookup s.ref n act) s := by
  simp only [extendedTelegram, hl, if_pos hn]

/-- The control byte of a frame of at least 10 bytes is in the frame, not behind it (R77). -/
theorem controlOf_take {T : Nat} (bs : Bytes) (h : 10 ≤ T) : controlOf (bs.take T) = controlOf bs := by
  unfold controlOf byteAt
  simp only [List.getD_eq_getElem?_getD, List.getElem?_take]
  rw [if_pos (by omega)]

/-! ## The telegram rows -/

/-- An embedded telegram row by its control byte (R78, R113, R114). -/
theorem runTelegramRow_embedded (c : Byte) (s : State) :
    runTelegramRow (decodeEmbedded c) s =
      if c = 0 then consumeTelegram 8 pureReadEvents s else embeddedTelegram (actionOf c) s := by
  unfold decodeEmbedded actionOf
  by_cases h0 : c = 0
  · simp [h0, runTelegramRow, runTelegramReadPure]
  · simp only [if_neg h0]
    split
    · next h => simp [runTelegramRow, runTelegramWriteEmb]
    · split
      · next h => simp [runTelegramRow, runTelegramResponseEmb]
      · next h => simp [runTelegramRow, runTelegramUnknownEmb]

/-- An extended telegram row by its control byte (R78, R114). -/
theorem runTelegramRow_extended (c : Byte) (s : State) :
    runTelegramRow (decodeExtended c) s = extendedTelegram (actionOf c) s := by
  unfold decodeExtended actionOf
  by_cases h0 : c = 0
  · simp [h0, runTelegramRow, runTelegramReadExt]
  · simp only [if_neg h0]
    split
    · simp [runTelegramRow, runTelegramWriteExt]
    · split
      · simp [runTelegramRow, runTelegramResponseExt]
      · simp [runTelegramRow, runTelegramUnknownExt]

/-! ## The frame rows by length field -/

/-- A complete telegram is consumed and emits its events (R107 to R114). -/
theorem runFrameTelegram_complete {n : Byte} {s : State} (h : completeFrame s.pending = some n)
    (hn : 8 ≤ n.toNat) :
    runFrameTelegram n s = (s.setPending (s.pending.drop (frameTotal n))).emit
      (telegramEvents s.lookup s.ref n (s.pending.take (frameTotal n))) := by
  obtain ⟨hl, ht⟩ := completeFrame_eq_some.1 h
  have hc : controlOf (s.pending.take (frameTotal n)) = controlOf s.pending :=
    controlOf_take _ (by unfold frameTotal; omega)
  simp only [runFrameTelegram, if_pos ht, telegramRow, telegramEvents, hc]
  by_cases h8 : n.toNat ≤ 8
  · have e8 : n = 8 := BitVec.eq_of_toNat_eq (by simp; omega)
    subst e8
    rw [if_pos h8, runTelegramRow_embedded]
    by_cases h0 : controlOf s.pending = 0
    · simp only [h0, if_true, and_self, consumeTelegram_of_le _ ht]
    · simp only [h0, if_false, and_false, embeddedTelegram, consumeTelegram_of_le _ ht]
  · have e8 : n ≠ 8 := by rintro rfl; simp at h8
    rw [if_neg h8, runTelegramRow_extended, extendedTelegram_of hl (by omega), consumeTelegram_of_le _ ht]
    simp only [e8, false_and, if_false]

/-- What one pass over a complete frame does, by its length field (R103). -/
theorem framePass_complete {n : Byte} {s : State} (h : completeFrame s.pending = some n) :
    framePass n s =
      if n.toNat ≤ 3 then s.setPending (s.pending.drop (frameTotal n))
      else if n.toNat ≤ 7 then
        raiseMalformedFrame (frameTotal n) (s.pending.take (frameTotal n))
          (s.setPending (s.pending.drop (frameTotal n)))
      else (s.setPending (s.pending.drop (frameTotal n))).emit
        (telegramEvents s.lookup s.ref n (s.pending.take (frameTotal n))) := by
  have ht := (completeFrame_eq_some.1 h).2
  unfold framePass decodeFrameLen
  by_cases h1 : n.toNat ≤ 1
  · have e : (n.extractLsb' 0 1).toNat + 2 = frameTotal n := by
      simp only [BitVec.extractLsb'_toNat, frameTotal, Nat.shiftRight_zero]; omega
    rw [if_pos h1, if_pos (by omega)]
    simp only [runFrameRow, runFrameShort, e, consumeSilently_of_le ht]
  rw [if_neg h1]
  by_cases h2 : n = 2
  · subst h2
    simp only [if_true, runFrameRow, runFrameConfirm]
    exact consumeSilently_of_le ht
  by_cases h3 : n = 3
  · subst h3
    simp only [if_neg h2, if_true, runFrameRow, runFrameAck]
    exact consumeSilently_of_le ht
  have h23 : ¬ n.toNat ≤ 3 := by
    intro hle
    rcases (by omega : n.toNat = 2 ∨ n.toNat = 3) with e | e
    · exact h2 (BitVec.eq_of_toNat_eq e)
    · exact h3 (BitVec.eq_of_toNat_eq e)
  rw [if_neg h2, if_neg h3, if_neg h23]
  by_cases h7 : n.toNat ≤ 7
  · have e : (n.extractLsb' 0 2).toNat + 6 = frameTotal n := by
      simp only [BitVec.extractLsb'_toNat, frameTotal, Nat.shiftRight_zero]; omega
    rw [if_pos h7, if_pos h7]
    simp only [runFrameRow]
    rw [runFrameMalformed_of_le (by omega), e]
  · rw [if_neg h7, if_neg h7]
    simp only [runFrameRow]
    exact runFrameTelegram_complete h (by omega)

/-- Inversion of one pass (R103): the frame is consumed, and it was silent, or malformed, or a telegram. -/
theorem framePass_cases {n : Byte} {s : State} (h : completeFrame s.pending = some n) :
    (n.toNat ≤ 3 ∧ framePass n s = s.setPending (s.pending.drop (frameTotal n))) ∨
    (4 ≤ n.toNat ∧ n.toNat ≤ 7 ∧ framePass n s =
      raiseMalformedFrame (frameTotal n) (s.pending.take (frameTotal n))
        (s.setPending (s.pending.drop (frameTotal n)))) ∨
    (8 ≤ n.toNat ∧ framePass n s = (s.setPending (s.pending.drop (frameTotal n))).emit
      (telegramEvents s.lookup s.ref n (s.pending.take (frameTotal n)))) := by
  rw [framePass_complete h]
  by_cases h3 : n.toNat ≤ 3
  · exact .inl ⟨h3, if_pos h3⟩
  · rw [if_neg h3]
    by_cases h7 : n.toNat ≤ 7
    · exact .inr (.inl ⟨by omega, h7, if_pos h7⟩)
    · exact .inr (.inr ⟨by omega, if_neg h7⟩)

/-- Whatever the frame, a pass takes exactly its bytes off the accumulator (R102). -/
theorem framePass_pending {n : Byte} {s : State} (h : completeFrame s.pending = some n) :
    (framePass n s).pending = s.pending.drop (frameTotal n) := by
  rcases framePass_cases h with ⟨-, e⟩ | ⟨-, -, e⟩ | ⟨-, e⟩ <;> rw [e] <;> simp

/-- The drain loop with no complete frame at the front (R101). -/
theorem drainLoop_of_none {k : Nat} {s : State} (h : completeFrame s.pending = none) : drainLoop k s = s := by
  cases k with
  | zero => rfl
  | succ k => simp only [drainLoop, h]

/-- One turn of the drain loop over a complete frame (R100). -/
theorem drainLoop_succ {k : Nat} {s : State} {n : Byte} (h : completeFrame s.pending = some n) :
    drainLoop (k + 1) s =
      if (framePass n s).fault = true then framePass n s else drainLoop k (framePass n s) := by
  simp only [drainLoop, h]

end Sys2Proof.Machine
end

