-- ==== Sys2Proof/Laws/Feed.lean ====
section
/-! SUPPORT. The drain loop as a whole: its equation without a bound, its induction, what it keeps, and what
holds after it (`40_frame_splitter.md` R100 to R104 and R116). -/

namespace Sys2Proof.Machine

/-! ## Termination (R104) -/

/-- A pass takes at least two bytes off the accumulator (R104). -/
theorem framePass_shorter {n : Byte} {s : State} (h : completeFrame s.pending = some n) :
    (framePass n s).pending.length + 2 ≤ s.pending.length := by
  have := (completeFrame_eq_some.1 h).2
  rw [framePass_pending h, List.length_drop]
  unfold frameTotal at *
  omega

/-- Any bound of at least half the length drains alike. -/
theorem drainLoop_bound (k : Nat) : ∀ (k' : Nat) (s : State), s.pending.length / 2 ≤ k →
    s.pending.length / 2 ≤ k' → drainLoop k s = drainLoop k' s := by
  induction k with
  | zero =>
    intro k' s h _
    have hn : completeFrame s.pending = none := completeFrame_eq_none.2 fun n hn => by
      simp [lengthField_eq_none.2 (by omega : s.pending.length < 2)] at hn
    rw [drainLoop_of_none hn, drainLoop_of_none hn]
  | succ k ih =>
    intro k' s h h'
    cases hc : completeFrame s.pending with
    | none => rw [drainLoop_of_none hc, drainLoop_of_none hc]
    | some n =>
      have hs := framePass_shorter hc
      obtain ⟨j, rfl⟩ : ∃ j, k' = j + 1 := ⟨k' - 1, by omega⟩
      rw [drainLoop_succ hc, drainLoop_succ hc]
      split
      · rfl
      · exact ih _ _ (by omega) (by omega)

/-! ## The equation of the drain -/

/-- With no complete frame the drain does nothing (R101). -/
theorem feedDrain_of_none {s : State} (h : completeFrame s.pending = none) : feedDrain s = s :=
  drainLoop_of_none h

/-- With a complete frame the drain makes a pass, and stops there if it raised the fault (R100, R106). -/
theorem feedDrain_of_some {s : State} {n : Byte} (h : completeFrame s.pending = some n) :
    feedDrain s = if (framePass n s).fault = true then framePass n s else feedDrain (framePass n s) := by
  have hs := framePass_shorter h
  obtain ⟨k, hk⟩ : ∃ k, s.pending.length / 2 = k + 1 := ⟨s.pending.length / 2 - 1, by omega⟩
  unfold feedDrain
  rw [hk, drainLoop_succ h]
  split
  · rfl
  · exact drainLoop_bound _ _ _ (by omega) (by omega)

/-- Induction along a drain: nothing to take, or a last frame that raises the fault, or a frame and then
the rest. -/
theorem feedDrain_induct {Q : State → State → Prop}
    (stop : ∀ s, completeFrame s.pending = none → Q s s)
    (bad : ∀ s n, completeFrame s.pending = some n → (framePass n s).fault = true → Q s (framePass n s))
    (pass : ∀ s n t, completeFrame s.pending = some n → (framePass n s).fault = false →
      Q (framePass n s) t → Q s t) (s : State) : Q s (feedDrain s) := by
  generalize hk : s.pending.length = k
  induction k using Nat.strong_induction_on generalizing s with
  | _ k ih =>
    cases hc : completeFrame s.pending with
    | none =>
      rw [feedDrain_of_none hc]
      exact stop s hc
    | some n =>
      have hs := framePass_shorter hc
      rw [feedDrain_of_some hc]
      split
      · exact bad s n hc ‹_›
      · exact pass s n _ hc (Bool.eq_false_iff.2 ‹¬ (framePass n s).fault = true›) (ih _ (by omega) _ rfl)

/-! ## What the drain keeps -/

/-- A pass writes neither the configuration, nor the ports, nor the operands. -/
theorem framePass_keeps {n : Byte} {s : State} (h : completeFrame s.pending = some n) :
    (framePass n s).pendingCap = s.pendingCap ∧ (framePass n s).port = s.port ∧
    (framePass n s).operand = s.operand ∧ (framePass n s).lookup = s.lookup ∧
    (framePass n s).ref = s.ref ∧ (framePass n s).result = s.result := by
  rcases framePass_cases h with ⟨-, e⟩ | ⟨-, -, e⟩ | ⟨-, e⟩ <;> rw [e] <;> simp

/-- Nor does the whole drain, and it never lengthens the accumulator. -/
theorem feedDrain_keeps (s : State) :
    (feedDrain s).pendingCap = s.pendingCap ∧ (feedDrain s).port = s.port ∧
    (feedDrain s).operand = s.operand ∧ (feedDrain s).lookup = s.lookup ∧ (feedDrain s).ref = s.ref ∧
    (feedDrain s).result = s.result ∧ (feedDrain s).pending.length ≤ s.pending.length := by
  apply feedDrain_induct (Q := fun s t => t.pendingCap = s.pendingCap ∧ t.port = s.port ∧
    t.operand = s.operand ∧ t.lookup = s.lookup ∧ t.ref = s.ref ∧ t.result = s.result ∧
    t.pending.length ≤ s.pending.length)
  · intro s _
    simp
  · intro s n h _
    have hs := framePass_shorter h
    obtain ⟨a, b, c, d, e, f⟩ := framePass_keeps h
    exact ⟨a, b, c, d, e, f, by omega⟩
  · rintro s n t h - ⟨a, b, c, d, e, f, g⟩
    have hs := framePass_shorter h
    obtain ⟨a', b', c', d', e', f'⟩ := framePass_keeps h
    exact ⟨a.trans a', b.trans b', c.trans c', d.trans d', e.trans e', f.trans f', by omega⟩

/-! ## What holds after the drain -/

/-- A decode by any code is never partially filled (R12). -/
theorem decodeAs_filled (k : Byte) (P : Bytes) (ref : Ref) : (decodeAs k P ref).Filled := by
  unfold decodeAs
  split
  · simp [Decoded.Filled, decodeFailed]
  · exact decodeSized_filled _ _ _

/-- A guessed decode is never partially filled (R12). -/
theorem decodeGuessed_filled (n : Byte) (P : Bytes) : (decodeGuessed n P).Filled := by
  unfold decodeGuessed
  split
  · exact guess_filled _ _ _ _
  split
  · exact guess_filled _ _ _ _
  split
  · exact guess_filled _ _ _ _
  unfold fallback14
  split <;> simp [Decoded.Filled, decodeFailed]

/-- The result of a telegram is never partially filled, whichever way its type is selected (R112). -/
theorem decodeSelected_filled (L : Lookup) (dst : Word) (n : Byte) (P : Bytes) (ref : Ref) :
    (decodeSelected L dst n P ref).Filled := by
  unfold decodeSelected
  split
  · exact decodeAs_filled _ _ _
  · exact decodeGuessed_filled _ _

/-- Every event of a telegram is filled (R115). -/
theorem telegramEvents_filled (L : Lookup) (ref : Ref) (n : Byte) (F : Bytes) :
    ∀ ev ∈ telegramEvents L ref n F, ev.Filled := by
  intro ev h
  unfold telegramEvents at h
  split at h
  · simp only [pureReadEvents, List.mem_singleton] at h
    subst h
    trivial
  · simp only [decodePathEvents, List.mem_cons, List.not_mem_nil, or_false] at h
    rcases h with rfl | rfl | rfl
    · trivial
    · exact decodeSelected_filled _ _ _ _ _
    · exact decodeSelected_filled _ _ _ _ _

/-- A drain from a state without a fault leaves a consistent fault record, no complete frame unless it
raised the fault (R22), and only filled events. -/
theorem feedDrain_good (s : State) (hf : s.fault = false) (hr : FaultRecordOk s)
    (he : ∀ ev ∈ s.events, ev.Filled) :
    FaultRecordOk (feedDrain s) ∧ ((feedDrain s).fault = false → NoCompleteFrame (feedDrain s).pending) ∧
      ∀ ev ∈ (feedDrain s).events, ev.Filled := by
  revert hf hr he
  apply feedDrain_induct (Q := fun s t => s.fault = false → FaultRecordOk s →
    (∀ ev ∈ s.events, ev.Filled) →
    FaultRecordOk t ∧ (t.fault = false → NoCompleteFrame t.pending) ∧ ∀ ev ∈ t.events, ev.Filled)
  · exact fun s h _ hr he => ⟨hr, fun _ => completeFrame_eq_none.1 h, he⟩
  · intro s n h hft hf _ he
    obtain ⟨hl, hT⟩ := completeFrame_eq_some.1 h
    rcases framePass_cases h with ⟨-, e⟩ | ⟨h4, h7, e⟩ | ⟨-, e⟩
    · rw [e] at hft; simp [hf] at hft
    · rw [e]
      refine ⟨?_, by simp, by simpa using he⟩
      obtain ⟨a, rest, hp⟩ := lengthField_eq_some.1 hl
      simp only [FaultRecordOk, raiseMalformedFrame_fault, if_true, raiseMalformedFrame_faultCause,
        raiseMalformedFrame_faultLen, raiseMalformedFrame_faultFrame, BitVec.toNat_ofNat, true_and,
        List.length_take]
      simp only [frameTotal] at *
      refine ⟨by omega, by omega, by omega, ?_⟩
      rw [hp]
      simp [lengthField, List.take, frameTotal]
      omega
    · rw [e] at hft; simp [hf] at hft
  · intro s n t h hft ih hf hr he
    rcases framePass_cases h with ⟨-, e⟩ | ⟨-, -, e⟩ | ⟨-, e⟩
    · rw [e] at ih
      exact ih (by simpa using hf) (by simpa [FaultRecordOk] using hr) (by simpa using he)
    · rw [e] at hft; simp at hft
    · rw [e] at ih
      refine ih (by simpa using hf) (by simpa [FaultRecordOk] using hr) fun ev hev => ?_
      rcases List.mem_append.1 (by simpa using hev) with h' | h'
      · exact he _ h'
      · exact telegramEvents_filled _ _ _ _ _ h'

/-! ## FEED -/

/-- FEED with its operand shape (R100). -/
theorem execFeed_of {s : State} {chunk : Bytes} {ref : Ref} (h : s.operand = .chunk chunk ref) :
    execFeed s = .next (feedChunk chunk ref s) := by
  simp only [execFeed, feedCommand, h]

end Sys2Proof.Machine
end

