-- ==== Sys2Proof/Laws/Step.lean ====
section
/-! SUPPORT. What a command can do to the state, said once: it answers and changes nothing else, or it is a
RESET, or it is a FEED that drains (`44_system.md` R221 to R223, `40_frame_splitter.md` R100). -/

namespace Sys2Proof.Machine

/-- `t` is `s` with an answer, filled, and not the one that a FEED gives with the fault. -/
def AnswersOnly (s t : State) : Prop :=
  ∃ r, t = s.reply r ∧ r.Filled ∧ ∀ events, r ≠ .feed .malformedFrame events

/-- An illegal command only answers (R221). -/
theorem illegalCommand_answersOnly (s : State) : AnswersOnly s (illegalCommand s) :=
  ⟨_, rfl, trivial, by simp⟩

/-- DECODE_AS only answers (R36). -/
theorem decodeAsCommand_answersOnly (k : Byte) (s : State) : AnswersOnly s (decodeAsCommand k s) := by
  unfold decodeAsCommand
  split
  · exact ⟨_, rfl, decodeAs_filled _ _ _, by simp⟩
  all_goals exact illegalCommand_answersOnly s

/-- DECODE_GUESS only answers (R36). -/
theorem decodeGuessCommand_answersOnly (n : Byte) (s : State) : AnswersOnly s (decodeGuessCommand n s) := by
  unfold decodeGuessCommand
  split
  · exact ⟨_, rfl, decodeGuessed_filled _ _, by simp⟩
  all_goals exact illegalCommand_answersOnly s

/-- ENCODE only answers (R36). -/
theorem encodeCommand_answersOnly (k : Byte) (s : State) : AnswersOnly s (encodeCommand k s) := by
  unfold encodeCommand
  split
  · exact ⟨_, rfl, trivial, by simp⟩
  all_goals exact illegalCommand_answersOnly s

/-- STATUS only answers (R222). -/
theorem statusCommand_answersOnly (s : State) : AnswersOnly s (statusCommand s) := by
  unfold statusCommand
  split
  · exact ⟨_, rfl, trivial, by simp⟩
  all_goals exact illegalCommand_answersOnly s

/-- Every DECODE_AS row is its code's command (R141). -/
theorem exec_decodeAsRow (d : Dpt) (s : State) : exec (decodeAsRow d) s = .next (decodeAsCommand d.code s) := by
  cases d <;> rfl

/-- Every ENCODE row is its code's command (R200). -/
theorem exec_encodeRow (d : Dpt) (s : State) : exec (encodeRow d) s = .next (encodeCommand d.code s) := by
  cases d <;> rfl

/-- Inversion of a command: it only answers, or it is RESET, or it is a FEED that drains. -/
theorem exec_command_cases {w : Word} {s t : State} (h : exec (decodeCommand w) s = .next t) :
    AnswersOnly s t ∨
    (w = 0x0600 ∧ s.operand = .nothing ∧ t = (resetBlock s).reply (.plain .noError)) ∨
    (w = 0x0100 ∧ ∃ chunk ref, s.operand = .chunk chunk ref ∧ s.fault = false ∧
      fitsPending s.pendingCap (s.pending.length + chunk.length) = true ∧
      t = endFeed (feedDrain (beginFeed chunk ref s))) := by
  obtain ⟨hi, lo, rfl⟩ : ∃ hi lo, w = wordOf hi lo := ⟨_, _, (wordOf_hi_lo w).symm⟩
  rw [decodeCommand_wordOf] at h
  split at h
  · next h1 =>
    obtain ⟨rfl, rfl⟩ := h1
    obtain rfl : feedCommand s = t := Host.Outcome.next.inj h
    unfold feedCommand
    split
    · next chunk ref hop =>
      unfold feedChunk
      split
      · exact .inl ⟨_, rfl, by simp [Result.Filled], by simp⟩
      · next hf =>
        split
        · next hfit => exact .inr (.inr ⟨by decide, chunk, ref, hop, by simpa using hf, hfit, rfl⟩)
        · exact .inl ⟨_, rfl, by simp [Result.Filled], by simp⟩
    all_goals exact .inl (illegalCommand_answersOnly s)
  split at h
  · left
    split at h
    · next d _ =>
      obtain rfl := Host.Outcome.next.inj ((exec_decodeAsRow d s).symm.trans h)
      exact decodeAsCommand_answersOnly _ _
    · obtain rfl := Host.Outcome.next.inj h
      exact decodeAsCommand_answersOnly _ _
  split at h
  · obtain rfl := Host.Outcome.next.inj h
    exact .inl (decodeGuessCommand_answersOnly _ _)
  split at h
  · left
    split at h
    · next d _ =>
      obtain rfl := Host.Outcome.next.inj ((exec_encodeRow d s).symm.trans h)
      exact encodeCommand_answersOnly _ _
    · obtain rfl := Host.Outcome.next.inj h
      exact encodeCommand_answersOnly _ _
  split at h
  · obtain rfl := Host.Outcome.next.inj h
    exact .inl (statusCommand_answersOnly s)
  split at h
  · next h1 =>
    obtain ⟨rfl, rfl⟩ := h1
    obtain rfl : resetCommand s = t := Host.Outcome.next.inj h
    unfold resetCommand
    split
    · next hop => exact .inr (.inl ⟨by decide, hop, rfl⟩)
    all_goals exact .inl (illegalCommand_answersOnly s)
  · obtain rfl : illegalCommand s = t := Host.Outcome.next.inj h
    exact .inl (illegalCommand_answersOnly s)

end Sys2Proof.Machine
end

