-- ==== Sys2Proof/Machine/Assembler.lean ====
section
/-! DEFINITION. The assembler syntax of commands (`30_encoding.md` R74): a line as data, its text, the
request it assembles to, and a program as the commands that the host issues one after another. -/

namespace Sys2Proof.Machine

/-! ## Lines -/

/-- How a line names a datapoint type: `DPTk`, or `DPT#0xKK` for an arbitrary code (R74). -/
inductive AsmDpt where
  | named (d : Dpt)
  | code (k : Byte)
deriving DecidableEq, Repr

/-- How a line writes the value of ENCODE (R74). -/
inductive AsmValue where
  | bool (b : Bool)
  | int (i : Int)
  | tuple3 (a b c : Int)
  | tuple4 (a b c d : Int)
  /-- A decimal or a rational, for DPT9. -/
  | rational (q : Rat)
  /-- `f32:0xXXXXXXXX`, for DPT14. -/
  | f32 (bits : Long)
deriving DecidableEq, Repr

/-- A command line (R74). `@ (D, W)` may be left out when no DPT10 decode can happen. -/
inductive AsmLine where
  | feed (bytes : Bytes) (ref : Option Ref)
  | decodeAs (dpt : AsmDpt) (bytes : Bytes) (ref : Option Ref)
  | decodeGuess (n : Byte) (bytes : Bytes)
  | encode (dpt : AsmDpt) (v : AsmValue)
  | status
  | reset
deriving DecidableEq, Repr

/-! ## Assembling -/

/-- `DPTk` assembles to `ARG = k` (R74). -/
def asmCode : AsmDpt → Byte
  | .named d => d.code
  | .code k => k

/-- The operand value a line writes. For DPT9 an integer is written for the rational (program P3). -/
def asmNative (k : Byte) : AsmValue → Native
  | .bool b => .bool b
  | .int i => if k = Dpt.dpt9.code then .num i else .int i
  | .tuple3 a b c => .tuple3 a b c
  | .tuple4 a b c d => .tuple4 a b c d
  | .rational q => .num q
  | .f32 bits => .f32 bits

/-- The command word of a line (R71). -/
def asmWord : AsmLine → Word
  | .feed _ _ => wordOf 0x01 0
  | .decodeAs dpt _ _ => wordOf 0x02 (asmCode dpt)
  | .decodeGuess n _ => wordOf 0x03 n
  | .encode dpt _ => wordOf 0x04 (asmCode dpt)
  | .status => wordOf 0x05 0
  | .reset => wordOf 0x06 0

/-- The operand record of a line (R37). A `REF` that is left out is of no consequence, and is given as the
one of zeros (log entry 11). -/
def asmOperand : AsmLine → Operand
  | .feed bytes ref => .chunk bytes (ref.getD zeroRef)
  | .decodeAs _ bytes ref => .bytesRef bytes (ref.getD zeroRef)
  | .decodeGuess _ bytes => .bytes bytes
  | .encode dpt v => .value (asmNative (asmCode dpt) v)
  | .status | .reset => .nothing

/-- The request a line assembles to, with the lookup the host gives (R30). -/
def assemble (L : Lookup) (line : AsmLine) : Request := ⟨asmWord line, asmOperand line, L⟩

/-- A program: the host issues its commands in order (R220, log entry 1). -/
def State.withProgram (s : State) (L : Lookup) (program : List AsmLine) : State :=
  { s with port := s.port ++ program.map (assemble L) }

/-! ## The text of a line -/

/-- A hexadecimal digit. -/
def hexDigit (d : Nat) : String :=
  (["0", "1", "2", "3", "4", "5", "6", "7", "8", "9", "A", "B", "C", "D", "E", "F"]).getD d ""

/-- A byte as two hexadecimal digits. -/
def hexByte (b : Byte) : String := hexDigit (b.toNat / 16) ++ hexDigit (b.toNat % 16)

/-- Bytes in brackets, separated by spaces. -/
def bytesText (bytes : Bytes) : String := "[" ++ " ".intercalate (bytes.map hexByte) ++ "]"

/-- `@ (D, W)`, or nothing. -/
def refText : Option Ref → String
  | some r => " @ (" ++ toString r.day ++ ", " ++ toString r.weekday.number ++ ")"
  | none => ""

/-- The name of a datapoint type. -/
def dptText : AsmDpt → String
  | .named d => "DPT" ++ toString d.code.toNat
  | .code k => "DPT#0x" ++ hexByte k

/-- A value as written. -/
def valueText : AsmValue → String
  | .bool b => if b then "true" else "false"
  | .int i => toString i
  | .tuple3 a b c => "(" ++ ", ".intercalate ([a, b, c].map toString) ++ ")"
  | .tuple4 a b c d => "(" ++ ", ".intercalate ([a, b, c, d].map toString) ++ ")"
  | .rational q => toString q.num ++ "/" ++ toString q.den
  | .f32 bits => "f32:0x" ++ String.join ((List.range 4).map (fun i => hexByte (bits.extractLsb' (24 - 8 * i) 8)))

/-- The text of a line (R74). A comment, from `;` to the end of a line, has no meaning and is not written. -/
def asmText : AsmLine → String
  | .feed bytes ref => "FEED " ++ bytesText bytes ++ refText ref
  | .decodeAs dpt bytes ref => "DECODE_AS " ++ dptText dpt ++ ", " ++ bytesText bytes ++ refText ref
  | .decodeGuess n bytes => "DECODE_GUESS " ++ toString n.toNat ++ ", " ++ bytesText bytes
  | .encode dpt v => "ENCODE " ++ dptText dpt ++ ", " ++ valueText v
  | .status => "STATUS"
  | .reset => "RESET"

end Sys2Proof.Machine
end

