-- ==== Sys2Proof/Tests/Slice0.lean ====
section
/-! SUPPORT. Tests: ill-formed terms that the check refuses, words written out from the spec's encodings,
one-step vectors from `95_test_vectors.md` (the id of the vector stands in each docstring), and a witness of
the hypotheses of every statement. -/

namespace Sys2Proof.Tests

open Sys2Proof Sys2Proof.Machine Sys2Proof.Claims

/-! ## Well-formedness smoke test: each check refuses a term -/

theorem test_wf_refuses_known_code_in_decodeAsUnknown : (Instr.decodeAsUnknown 9).wellFormed = false := by decide
theorem test_wf_refuses_known_code_in_encodeUnknown : (Instr.encodeUnknown 232).wellFormed = false := by decide
theorem test_wf_refuses_legal_word_in_illegal :
    (Instr.illegal 1 0).wellFormed = false ∧ (Instr.illegal 2 15).wellFormed = false := by decide
theorem test_wf_refuses_short_length_in_frameTelegram : (Instr.frameTelegram 7).wellFormed = false := by decide
theorem test_wf_refuses_write_byte_in_telegramUnknownEmb :
    (Instr.telegramUnknownEmb 0x80).wellFormed = false := by decide
theorem test_wf_refuses_response_byte_in_telegramUnknownExt :
    (Instr.telegramUnknownExt 0x41).wellFormed = false := by decide

/-! ## Words written out from R71, R76, R78, R80 and R92 -/

theorem test_words_feed_status_reset_illegal :
    decode .cmd16 0b0000000100000000 = .ok .feed ∧ decode .cmd16 0b0000010100000000 = .ok .status ∧
    decode .cmd16 0b0000011000000000 = .ok .reset ∧ decode .cmd16 0b0000011100000000 = .ok (.illegal 7 0) := by
  decide

theorem test_words_decodeAs :
    decode .cmd16 0x0201 = .ok .decodeAsDpt1 ∧ decode .cmd16 0x0202 = .ok .decodeAsDpt2 ∧
    decode .cmd16 0x0203 = .ok .decodeAsDpt3 ∧ decode .cmd16 0x0204 = .ok .decodeAsDpt4 ∧
    decode .cmd16 0x0205 = .ok .decodeAsDpt5 ∧ decode .cmd16 0x0206 = .ok .decodeAsDpt6 ∧
    decode .cmd16 0x0207 = .ok .decodeAsDpt7 ∧ decode .cmd16 0x0208 = .ok .decodeAsDpt8 ∧
    decode .cmd16 0x0209 = .ok .decodeAsDpt9 ∧ decode .cmd16 0x020A = .ok .decodeAsDpt10 ∧
    decode .cmd16 0x020B = .ok .decodeAsDpt11 ∧ decode .cmd16 0x020C = .ok .decodeAsDpt12 ∧
    decode .cmd16 0x020D = .ok .decodeAsDpt13 ∧ decode .cmd16 0x020E = .ok .decodeAsDpt14 ∧
    decode .cmd16 0x0210 = .ok .decodeAsDpt16 ∧ decode .cmd16 0x02E8 = .ok .decodeAsDpt232 ∧
    decode .cmd16 0b0000001000001111 = .ok (.decodeAsUnknown 15) := by decide

theorem test_words_decodeGuess : decode .cmd16 0b0000001111111111 = .ok (.decodeGuess 255) := by decide

theorem test_words_encode :
    decode .cmd16 0x0401 = .ok .encodeDpt1 ∧ decode .cmd16 0x0402 = .ok .encodeDpt2 ∧
    decode .cmd16 0x0403 = .ok .encodeDpt3 ∧ decode .cmd16 0x0404 = .ok .encodeDpt4 ∧
    decode .cmd16 0x0405 = .ok .encodeDpt5 ∧ decode .cmd16 0x0406 = .ok .encodeDpt6 ∧
    decode .cmd16 0x0407 = .ok .encodeDpt7 ∧ decode .cmd16 0x0408 = .ok .encodeDpt8 ∧
    decode .cmd16 0x0409 = .ok .encodeDpt9 ∧ decode .cmd16 0x040A = .ok .encodeDpt10 ∧
    decode .cmd16 0x040B = .ok .encodeDpt11 ∧ decode .cmd16 0x040C = .ok .encodeDpt12 ∧
    decode .cmd16 0x040D = .ok .encodeDpt13 ∧ decode .cmd16 0x040E = .ok .encodeDpt14 ∧
    decode .cmd16 0x0410 = .ok .encodeDpt16 ∧ decode .cmd16 0x04E8 = .ok .encodeDpt232 ∧
    decode .cmd16 0b0000010000000000 = .ok (.encodeUnknown 0) := by decide

theorem test_words_frame :
    decode .frameLen 0 = .ok (.frameShort 0) ∧ decode .frameLen 1 = .ok (.frameShort 1) ∧
    decode .frameLen 2 = .ok .frameConfirm ∧ decode .frameLen 3 = .ok .frameAck ∧
    decode .frameLen 4 = .ok (.frameMalformed 0) ∧ decode .frameLen 7 = .ok (.frameMalformed 3) ∧
    decode .frameLen 8 = .ok (.frameTelegram 8) ∧ decode .frameLen 255 = .ok (.frameTelegram 255) := by decide

theorem test_words_telegram :
    decode .telegramEmbedded 0b0000100000000000 = .ok .telegramReadPure ∧
    decode .telegramEmbedded 0b0000100010000001 = .ok (.telegramWriteEmb 1) ∧
    decode .telegramEmbedded 0b0000100001000000 = .ok (.telegramResponseEmb 0) ∧
    decode .telegramEmbedded 0b0000100010000010 = .ok (.telegramUnknownEmb 0x82) ∧
    decode .telegramExtended 0b00000000 = .ok .telegramReadExt ∧
    decode .telegramExtended 0b10000000 = .ok (.telegramWriteExt 0) ∧
    decode .telegramExtended 0b01000001 = .ok (.telegramResponseExt 1) ∧
    decode .telegramExtended 0b11000000 = .ok (.telegramUnknownExt 0xC0) := by decide

theorem test_words_rejected :
    decode .telegramEmbedded 0x0981 = .error (.notEmbeddedKey 0x0981) ∧
    decode .frameLen 0x0100 = .error (.moreThanOneByte 0x0100) := by decide

/-! ## The host's numbering -/

/-- A command row and a telegram row of 16 bits, and a one-byte row. -/
theorem test_decodeTableWord :
    decodeTableWord 16 0x0209 = some .decodeAsDpt9 ∧ decodeTableWord 16 0x0881 = some (.telegramWriteEmb 1) ∧
    decodeTableWord 8 0x05 = some (.frameMalformed 1) ∧ decodeTableWord 8 0x80 = some (.telegramWriteExt 0) ∧
    decodeTableWord 8 0x100 = none := by decide

/-! ## One-step vectors -/

/-- The `REF` of the vectors: day 20000, a Monday. -/
def ref : Ref := ⟨20000, .monday⟩

/-- The result record of an outcome. -/
def answer : Host.Outcome State Fault Refusal → Option Result
  | .next t => t.result
  | .fault _ => none
  | .refused _ => none

/-- A field of the next state of an outcome. -/
def field {α : Type} (f : State → α) : Host.Outcome State Fault Refusal → Option α
  | .next t => some (f t)
  | .fault _ => none
  | .refused _ => none

/-- One step from reset with one request at the port. -/
def run (cmd : Word) (operand : Operand) : Host.Outcome State Fault Refusal :=
  step { State.reset with port := [⟨cmd, operand, []⟩] }

/-- The answer to a DECODE_AS of `P`. -/
def decoding (k : Byte) (P : Bytes) : Option Result := answer (run (wordOf 0x02 k) (.bytesRef P ref))

/-- The answer to a DECODE_GUESS of `P`. -/
def guessing (n : Byte) (P : Bytes) : Option Result := answer (run (wordOf 0x03 n) (.bytes P))

/-- The answer to an ENCODE of `v`. -/
def encoding (k : Byte) (v : Native) : Option Result := answer (run (wordOf 0x04 k) (.value v))

/-- The answer to a FEED of `chunk`. -/
def feeding (chunk : Bytes) : Option Result := answer (run 0x0100 (.chunk chunk ref))

/-- A decode that gave a value. -/
def gave (k : Byte) (v : Value) : Option Result := some (.decoded ⟨.noError, k, some v⟩)

/-- A state with this accumulator and this operand record. -/
def holding (pending : Bytes) (operand : Operand) : State :=
  { State.reset with pending := pending, operand := operand }

/-! ### DECODE_AS (§2.3) -/

theorem test_decodeAsDpt1 : decoding 1 [0x41] = gave 1 (.int 1) ∧ decoding 1 [0x42] = gave 1 (.int (-62)) := by decide
theorem test_decodeAsDpt1_ends : decoding 1 [0x00] = gave 1 (.int (-64)) ∧ decoding 1 [0xFF] = gave 1 (.int 127) := by
  decide
theorem test_decodeAsDpt2 : decoding 2 [0x82] = gave 2 (.int 2) := by decide
theorem test_decodeAsDpt3 : decoding 3 [0x8B] = gave 3 (.int 11) := by decide
theorem test_decodeAsDpt4 : decoding 4 [0x7F] = gave 4 (.text [0x7F]) ∧ decoding 4 [0x80] = gave 4 (.opaque4 0x80) := by
  decide
theorem test_decodeAsDpt5 : decoding 5 [0xFF] = gave 5 (.int 255) := by decide
theorem test_decodeAsDpt6 : decoding 6 [0x80] = gave 6 (.int (-128)) ∧ decoding 6 [0x7F] = gave 6 (.int 127) := by decide
theorem test_decodeAsDpt7 : decoding 7 [0x12, 0x34] = gave 7 (.int 4660) := by decide
theorem test_decodeAsDpt7_length : decoding 7 [0x12] = some (.decoded ⟨.lengthMismatch, 7, none⟩) := by decide
theorem test_decodeAsDpt8 : decoding 8 [0xFF, 0xFE] = gave 8 (.int (-2)) := by decide
theorem test_decodeAsDpt9 : decoding 9 [0xA3, 0xB5] = gave 9 (.busFloat (-1099) 4) := by decide
theorem test_decodeAsDpt9_smallest : decoding 9 [0xF8, 0x00] = gave 9 (.busFloat (-2048) 15) := by decide
theorem test_decodeAsDpt10_ahead : decoding 10 [0x8C, 0x1E, 0x2D] = gave 10 (.time 4 12 30 45 20003) := by decide
theorem test_decodeAsDpt10_back : decoding 10 [0xAC, 0x1E, 0x2D] = gave 10 (.time 5 12 30 45 19997) := by decide
theorem test_decodeAsDpt11 : decoding 11 [0xE5, 0xF3, 0x63] = gave 11 (.date 5 3 1999) := by decide
theorem test_decodeAsDpt11_fold : decoding 11 [0x1F, 0x0C, 0x59] = gave 11 (.date 31 12 2089) := by decide
theorem test_decodeAsDpt12 : decoding 12 [0xFF, 0xFF, 0xFF, 0xFF] = gave 12 (.int 4294967295) := by decide
theorem test_decodeAsDpt13 : decoding 13 [0xFF, 0xFF, 0xFF, 0xFE] = gave 13 (.int (-2)) := by decide
theorem test_decodeAsDpt14 : decoding 14 [0x7F, 0xC0, 0x00, 0x01] = gave 14 (.f32 0x7FC00001) := by decide
theorem test_decodeAsDpt16 :
    decoding 16 [0x48, 0x45, 0x4C, 0x4C, 0x4F, 0, 0, 0, 0, 0, 0, 0, 0, 0] =
      gave 16 (.text [0x48, 0x45, 0x4C, 0x4C, 0x4F, 0, 0, 0, 0, 0, 0, 0, 0, 0]) := by decide
theorem test_decodeAsDpt232 : decoding 232 [0x10, 0x20, 0x30] = gave 232 (.rgb 0x30 0x20 0x10) := by decide
theorem test_decodeAsUnknown : decoding 233 [] = some (.decoded ⟨.unknownDatapointType, 233, none⟩) := by decide

/-! ### DECODE_GUESS (§2.4) -/

theorem test_decodeGuess_float_of_six :
    guessing 255 [0xC1, 0x20, 0x00, 0x00, 0xAA, 0xBB] = gave 14 (.f32 0xC1200000) := by decide
theorem test_decodeGuess_short : guessing 11 [1, 2, 3] = some (.decoded ⟨.lengthMismatch, 14, none⟩) := by decide

/-! ### ENCODE (§2.5) -/

theorem test_encodeDpt1 : encoding 1 (.bool true) = some (.encoded ⟨.noError, [0x01]⟩) := by decide
theorem test_encodeDpt1_shape : encoding 1 (.int 1) = some (.encoded ⟨.illegalCommand, []⟩) := by decide
theorem test_encodeDpt2 : encoding 2 (.int 4) = some (.encoded ⟨.outOfRange, []⟩) := by decide
theorem test_encodeDpt3 : encoding 3 (.int 15) = some (.encoded ⟨.noError, [0x0F]⟩) := by decide
theorem test_encodeDpt5 : encoding 5 (.int 200) = some (.encoded ⟨.noError, [0xC8]⟩) := by decide
theorem test_encodeDpt7 : encoding 7 (.int 4660) = some (.encoded ⟨.noError, [0x12, 0x34]⟩) := by decide
/-- A word at exponent 1, and the tie that fits no more at exponent 0 (20.475). -/
theorem test_encodeDpt9 :
    encoding 9 (.num 21) = some (.encoded ⟨.noError, [0x0C, 0x1A]⟩) ∧
    encoding 9 (.num (20475 / 1000)) = some (.encoded ⟨.noError, [0x0C, 0x00]⟩) := by decide +kernel
/-- The smallest value, its neighbour, and a negative tie (-0.015). -/
theorem test_encodeDpt9_ends :
    encoding 9 (.num (-67125248 / 100)) = some (.encoded ⟨.noError, [0xF8, 0x00]⟩) ∧
    encoding 9 (.num (-67125249 / 100)) = some (.encoded ⟨.outOfRange, []⟩) ∧
    encoding 9 (.num (-15 / 1000)) = some (.encoded ⟨.noError, [0x87, 0xFF]⟩) := by decide +kernel
theorem test_encodeDpt10 : encoding 10 (.tuple4 7 23 59 59) = some (.encoded ⟨.noError, [0xF7, 0x3B, 0x3B]⟩) := by decide
theorem test_encodeDpt10_hour : encoding 10 (.tuple4 1 24 0 0) = some (.encoded ⟨.outOfRange, []⟩) := by decide
theorem test_encodeDpt11 : encoding 11 (.tuple3 31 12 89) = some (.encoded ⟨.noError, [0x1F, 0x0C, 0x59]⟩) := by decide
theorem test_encodeDpt14 : encoding 14 (.f32 0xC1200000) = some (.encoded ⟨.noError, [0xC1, 0x20, 0x00, 0x00]⟩) := by
  decide
/-- NotSupported comes before the shape, for the seven decode-only types and an unknown code. -/
theorem test_encode_notSupported :
    ∀ k ∈ ([4, 6, 8, 12, 13, 16, 232, 15] : List Byte),
      encoding k (.bool true) = some (.encoded ⟨.notSupported, []⟩) := by decide

/-! ### Control commands (§2.1, §2.6) -/

/-- The state of R106's example: `FEED [00 05 00 27 11 05 0A 01]` from reset. -/
def faulted : State :=
  { State.reset with
    pending := [0x01], fault := true, faultCause := 3, faultLen := 7,
    faultFrame := [0x00, 0x05, 0x00, 0x27, 0x11, 0x05, 0x0A] }

theorem test_status :
    answer (exec .status faulted) =
      some (.status .noError 0x00000731 1 [0x00, 0x05, 0x00, 0x27, 0x11, 0x05, 0x0A]) := by decide
theorem test_reset :
    field (fun t => (t.pending, t.fault, t.faultCause, t.faultLen, t.faultFrame)) (exec .reset faulted) =
      some ([], false, 0, 0, []) := by decide
theorem test_illegal_while_fault :
    answer (exec (decodeCommand 0x0601) faulted) = some (.plain .illegalCommand) ∧
    field State.fault (exec (decodeCommand 0x0601) faulted) = some true := by decide
theorem test_wrong_record_shape : answer (run 0x0209 (.value (.int 3))) = some (.plain .illegalCommand) := by decide

/-! ### FEED (§2.2) -/

/-- F9: a write with an embedded payload, its type guessed. -/
theorem test_feed_write :
    feeding [0x00, 0x08, 0x00, 0x27, 0x11, 0x05, 0x0A, 0x01, 0x00, 0x81] =
      some (.feed .noError
        [.evTelegram .write 0x1105 0x0A01 [0x81],
         .evAction .write 0x1105 0x0A01 ⟨.noError, 1, some (.int 1)⟩,
         .evDest (Config.fmt 0x0A01 true) .write 0x1105 0x0A01 ⟨.noError, 1, some (.int 1)⟩]) := rfl

/-- P4: the fault keeps the bytes after the frame and sets the record. -/
theorem test_feed_malformed :
    field (fun t => (t.pending, t.fault, t.faultCause, t.faultLen, t.faultFrame))
        (run 0x0100 (.chunk [0x00, 0x05, 0x00, 0x27, 0x11, 0x05, 0x0A, 0x01] ref)) =
      some ([0x01], true, 3, 7, [0x00, 0x05, 0x00, 0x27, 0x11, 0x05, 0x0A]) := by decide

/-! ### Frame rows (§2.2, the frames F3 to F8) -/

theorem test_frameShort :
    field State.pending (exec (.frameShort 1) (holding [0x00, 0x01, 0xAA, 0x00, 0x00] .nothing)) =
      some [0x00, 0x00] := by decide
theorem test_frameConfirm :
    field State.pending (exec .frameConfirm (holding [0x00, 0x02, 0x00, 0x26, 0x00] .nothing)) =
      some [0x00] := by decide
theorem test_frameAck :
    field State.pending (exec .frameAck (holding [0x00, 0x03, 0x00, 0x27, 0x11] .nothing)) = some [] := by decide
theorem test_frameMalformed :
    field statusWord (exec (.frameMalformed 3)
      (holding [0x00, 0x07, 0x00, 0x27, 0x11, 0x05, 0x0A, 0x01, 0x00] .nothing)) = some 0x00000931 := by decide

/-! ### Telegram rows (§2.2, the frames F9 to F18) -/

/-- The events of a row run over a frame. -/
def emitted (i : Instr) (F : Bytes) : Option (List Event) := field State.events (exec i (holding F .nothing))

/-- F12: the row of a telegram of no named action. -/
theorem test_frameTelegram :
    (emitted (.frameTelegram 8) [0x00, 0x08, 0x00, 0x27, 0x11, 0x05, 0x0A, 0x01, 0x00, 0x23]).map
      (List.map Event.name) = some ["telegram", "unknown", Config.fmt 0x0A01 true] := rfl
/-- F13. -/
theorem test_telegramReadPure :
    emitted .telegramReadPure [0x00, 0x08, 0x00, 0x27, 0x11, 0x05, 0x0A, 0x03, 0x00, 0x00] =
      some [.evRead 0x1105 0x0A03] := by decide
/-- F10. -/
theorem test_telegramWriteEmb :
    (emitted (.telegramWriteEmb 0) [0x00, 0x08, 0x00, 0x27, 0x11, 0x05, 0x0A, 0x01, 0x00, 0x80]).map
      (List.take 2) = some [.evTelegram .write 0x1105 0x0A01 [0x80],
        .evAction .write 0x1105 0x0A01 ⟨.noError, 1, some (.int 0)⟩] := rfl
/-- F11. -/
theorem test_telegramResponseEmb :
    (emitted (.telegramResponseEmb 1) [0x00, 0x08, 0x00, 0x27, 0x11, 0x05, 0x0A, 0x01, 0x00, 0x41]).map
      (List.take 2) = some [.evTelegram .response 0x1105 0x0A01 [0x41],
        .evAction .response 0x1105 0x0A01 ⟨.noError, 1, some (.int 1)⟩] := rfl
/-- F12. -/
theorem test_telegramUnknownEmb :
    (emitted (.telegramUnknownEmb 0x23) [0x00, 0x08, 0x00, 0x27, 0x11, 0x05, 0x0A, 0x01, 0x00, 0x23]).map
      (List.take 2) = some [.evTelegram .unknown 0x1105 0x0A01 [0x23],
        .evAction .unknown 0x1105 0x0A01 ⟨.noError, 1, some (.int (-29))⟩] := rfl
/-- F14. -/
theorem test_telegramReadExt :
    (emitted .telegramReadExt [0x00, 0x09, 0x00, 0x27, 0x11, 0x05, 0x0A, 0x05, 0x00, 0x00, 0x07]).map
      (List.take 2) = some [.evTelegram .read 0x1105 0x0A05 [0x07],
        .evAction .read 0x1105 0x0A05 ⟨.noError, 5, some (.int 7)⟩] := rfl
/-- F15. -/
theorem test_telegramWriteExt :
    (emitted (.telegramWriteExt 0)
      [0x00, 0x0A, 0x00, 0x27, 0x11, 0x05, 0x0A, 0x02, 0x00, 0x80, 0x0C, 0x1A]).map (List.take 2) =
      some [.evTelegram .write 0x1105 0x0A02 [0x0C, 0x1A],
        .evAction .write 0x1105 0x0A02 ⟨.noError, 9, some (.busFloat 1050 1)⟩] := rfl
/-- F16: the fallback is too short, and the events are still emitted. -/
theorem test_telegramWriteExt_error :
    (emitted (.telegramWriteExt 0)
      [0x00, 0x0B, 0x00, 0x27, 0x11, 0x05, 0x0A, 0x04, 0x00, 0x80, 0x01, 0x02, 0x03]).map (List.take 2) =
      some [.evTelegram .write 0x1105 0x0A04 [0x01, 0x02, 0x03],
        .evAction .write 0x1105 0x0A04 ⟨.lengthMismatch, 14, none⟩] := rfl
/-- P3's third frame without the lookup entry. -/
theorem test_telegramResponseExt :
    (emitted (.telegramResponseExt 0)
      [0x00, 0x09, 0x00, 0x27, 0x11, 0x05, 0x0A, 0x03, 0x00, 0x40, 0xFF]).map (List.take 2) =
      some [.evTelegram .response 0x1105 0x0A03 [0xFF],
        .evAction .response 0x1105 0x0A03 ⟨.noError, 5, some (.int 255)⟩] := rfl
/-- F18's frame with a control byte of no named action. -/
theorem test_telegramUnknownExt :
    (emitted (.telegramUnknownExt 0xC0)
      [0x00, 0x0D, 0x00, 0x27, 0x11, 0x05, 0x0A, 0x08, 0x00, 0xC0, 0x41, 0x20, 0x00, 0x00, 0xFF]).map
      (List.take 2) = some [.evTelegram .unknown 0x1105 0x0A08 [0x41, 0x20, 0x00, 0x00, 0xFF],
        .evAction .unknown 0x1105 0x0A08 ⟨.noError, 14, some (.f32 0x41200000)⟩] := rfl
/-- W15 (P3): the lookup's code wins over the guess. -/
theorem test_lookup_wins :
    decodeSelected [(Config.fmt 0x0A03 true, 6)] 0x0A03 9 [0xFF] ref = ⟨.noError, 6, some (.int (-1))⟩ := by
  simp only [decodeSelected, Lookup.get, if_true]
  decide
/-- F21: an unknown code from the lookup. -/
theorem test_lookup_unknown_code :
    decodeSelected [(Config.fmt 0x0A07 true, 99)] 0x0A07 10 [0x0C, 0x1A] ref =
      ⟨.unknownDatapointType, 99, none⟩ := by
  simp only [decodeSelected, Lookup.get, if_true]
  decide

/-! ### `withFetchWord` -/

/-- The next step runs the word: a command, and a frame row through FEED. -/
theorem test_withFetchWord :
    answer (step (State.reset.withFetchWord 16 0x0209)) = gave 9 (.busFloat 0 0) ∧
    field statusWord (step (State.reset.withFetchWord 8 0x05)) = some 0x00000731 := by decide

/-! ### The assembler (R74, programs P3 to P5) -/

theorem test_assemble :
    assemble [] (.encode (.named .dpt9) (.int 21)) = ⟨0x0409, .value (.num 21), []⟩ ∧
    assemble [] (.decodeAs (.code 0x0F) [0x00] (some ref)) = ⟨0x020F, .bytesRef [0x00] ref, []⟩ ∧
    assemble [] (.encode (.named .dpt10) (.tuple4 4 12 30 45)) = ⟨0x040A, .value (.tuple4 4 12 30 45), []⟩ ∧
    assemble [] .reset = ⟨0x0600, .nothing, []⟩ := by decide +kernel

theorem test_asmText :
    asmText (.decodeAs (.named .dpt10) [0x8C, 0x1E, 0x2D] (some ref)) =
      "DECODE_AS DPT10, [8C 1E 2D] @ (20000, 1)" := by decide +kernel

/-! ## Witnesses

For each statement with hypotheses, states and operands that meet all of them together, at the ends of the
ranges that its clauses name. Statements over one hypothesis of the same form share a witness. -/

/-- Reset with this operand record: the state of the codec witnesses. -/
def atPort (operand : Operand) : State := holding [] operand

/-- A frame with length field `n` and control byte `c`, and zeros elsewhere. -/
def frame (n c : Byte) : Bytes := zeroFrame n c

/-- Reset with one request at the port. -/
def asking (s : State) (cmd : Word) (operand : Operand) : State := { s with port := [⟨cmd, operand, []⟩] }

theorem witness_DecodeOfEncode :
    (Instr.decodeAsUnknown 255).WellFormed ∧ (Instr.illegal 0x05 0xFF).WellFormed ∧
    (Instr.frameTelegram 8).WellFormed ∧ (Instr.frameTelegram 255).WellFormed ∧
    (Instr.telegramUnknownExt 0x42).WellFormed := by decide

theorem witness_EncodeOfDecode :
    decode .cmd16 0xFFFF = .ok (.illegal 0xFF 0xFF) ∧ decode .frameLen 0x00FF = .ok (.frameTelegram 255) ∧
    decode .telegramEmbedded 0x08FF = .ok (.telegramUnknownEmb 0xFF) ∧
    decode .telegramExtended 0x0000 = .ok .telegramReadExt := by decide

/-- The word of FEED also matches the row of ILLEGAL. -/
theorem witness_MostSpecificRowWins :
    decode .cmd16 0x0100 = .ok .feed ∧ (⟨"ILLEGAL", .cmd16, 0x0000, 0x0000⟩ : Row) ∈ opcodeTable ∧
    (0x0100 : Word) &&& 0x0000 = 0x0000 := by decide

/-- Each group of illegal words at its ends. -/
theorem witness_IllegalCommandWords :
    (∀ p ∈ ([(0x00, 0x00), (0x00, 0xFF), (0x07, 0x00), (0xFF, 0xFF), (0x01, 0x01), (0x05, 0x01), (0x06, 0xFF)] :
      List (Byte × Byte)),
      p.1 = 0x00 ∨ 0x07 ≤ p.1.toNat ∨ ((p.1 = 0x01 ∨ p.1 = 0x05 ∨ p.1 = 0x06) ∧ p.2 ≠ 0)) ∧
    (asking State.reset (wordOf 0x07 0x00) .nothing).port = [⟨wordOf 0x07 0x00, .nothing, []⟩] :=
  ⟨by
    intro p hp
    simp only [List.mem_cons, List.not_mem_nil, or_false] at hp
    rcases hp with rfl | rfl | rfl | rfl | rfl | rfl | rfl <;> decide, rfl⟩

theorem witness_StepRunsDecodedCommand :
    (asking State.reset 0x0500 .nothing).port = [⟨0x0500, .nothing, []⟩] ∧ State.reset.port = [] := by decide

theorem witness_DrainPassRunsFrameRow :
    ∀ n ∈ ([8, 9, 255] : List Byte), n.toNat + 2 ≤ (holding (frame n 0x40) .nothing).pending.length ∧
      8 ≤ n.toNat := by decide +kernel

theorem witness_DrainLoopEquation :
    NoCompleteFrame [0x00] ∧ NoCompleteFrame [0x00, 0x00].tail ∧
    lengthField (holding [0x00, 0x00] .nothing).pending = some 0 ∧
    (0 : Byte).toNat + 2 ≤ (holding [0x00, 0x00] .nothing).pending.length := by
  refine ⟨?_, ?_, by decide⟩ <;> (intro n h; simp [lengthField] at h)

/-- A step from a state with a request, and one from a good state. -/
theorem witness_StepAnswersOneRequest :
    ∃ t, step (asking State.reset 0x0500 .nothing) = .next t ∧ (asking State.reset 0x0500 .nothing).port ≠ [] :=
  ⟨_, rfl, by decide⟩

/-- The invariant holds at reset with a request at the port. -/
theorem good_asking (cmd : Word) (operand : Operand) : Inv (asking State.reset cmd operand) where
  record := ⟨rfl, rfl, rfl⟩
  drained := fun _ n h => by simp [asking, State.reset, lengthField] at h
  capacity := rfl
  noEvents := rfl
  filled := fun r h => by simp [asking, State.reset] at h

/-- A FEED of a malformed frame from a good state. -/
theorem witness_StepKeepsInvariant :
    ∃ t, Inv (asking State.reset 0x0100 (.chunk (frame 4 0) ref)) ∧
      step (asking State.reset 0x0100 (.chunk (frame 4 0) ref)) = .next t := ⟨_, good_asking _ _, rfl⟩

/-- The flag set by FEED, and cleared by RESET. -/
theorem witness_FaultSetByFeedClearedByReset :
    (∃ t, step (asking State.reset 0x0100 (.chunk (frame 4 0) ref)) = .next t ∧ t.fault ≠ State.reset.fault) ∧
    (∃ t, step (asking faulted 0x0600 .nothing) = .next t ∧ t.fault ≠ faulted.fault) :=
  ⟨⟨_, rfl, by decide⟩, ⟨_, rfl, by decide⟩⟩

/-- A refused FEED and a RESET while the fault is recorded. -/
theorem witness_FaultIsSticky :
    faulted.fault = true ∧ (∃ t, step (asking faulted 0x0100 (.chunk [0x00] ref)) = .next t) ∧
    (∃ t, step (asking faulted 0x0600 .nothing) = .next t) := ⟨rfl, ⟨_, rfl⟩, ⟨_, rfl⟩⟩

theorem witness_BlockWrittenOnlyByFeedAndReset :
    ∃ t, step (asking faulted 0x0500 .nothing) = .next t ∧
      ∀ (r : Request) (rest : List Request), (asking faulted 0x0500 .nothing).port = r :: rest →
        r.cmd ≠ 0x0100 ∧ r.cmd ≠ 0x0600 := by
  refine ⟨_, rfl, fun r rest h => ?_⟩
  obtain ⟨rfl, -⟩ := List.cons.inj h
  decide

/-- A frame of each length at which two kinds meet. -/
theorem witness_frames :
    ∀ n ∈ ([0, 1, 2, 3, 4, 7, 8, 9, 11, 255] : List Byte), IsFrame (frame n 0x80) := by
  unfold IsFrame
  decide +kernel

/-- A splitting with a silent frame, a telegram and a malformed frame at the lengths where kinds meet, and
one that stops. -/
theorem witness_FeedRefinesSplitting :
    (∃ events left bad, Splits [] ref (frame 0 0 ++ (frame 3 0 ++ (frame 8 0x81 ++ (frame 255 0 ++
      (frame 4 0 ++ [0x00]))))) events left bad) ∧
    Splits [] ref (frame 7 0 ++ []) [] [] (some (frame 7 0)) ∧
    Splits [] ref [0x00] [] [0x00] none ∧
    (holding [] (.chunk [0x00] ref)).fault = false ∧
    fitsPending (some 1) ((holding [] (.chunk [0x00] ref)).pending.length + [0x00].length) = true := by
  have h : ∀ n ∈ ([0, 3, 4, 7] : List Byte), IsFrame (frame n 0) := by unfold IsFrame; decide +kernel
  have h8 : IsFrame (frame 8 0x81) := by unfold IsFrame; decide +kernel
  have h255 : IsFrame (frame 255 0) := by unfold IsFrame; decide +kernel
  exact ⟨⟨_, _, _, .silent (h 0 (by decide)) (by decide) (.silent (h 3 (by decide)) (by decide)
      (.telegram h8 (by decide) (.telegram h255 (by decide +kernel) (.malformed (h 4 (by decide)) (by decide) (by decide)))))⟩,
    .malformed (h 7 (by decide)) (by decide) (by decide),
    .stop (fun n hn => by simp [lengthField] at hn), rfl, rfl⟩

theorem witness_FeedRefusedWhileFault :
    ({ faulted with operand := .chunk [0x00] ref } : State).operand = .chunk [0x00] ref ∧
    faulted.fault = true := ⟨rfl, rfl⟩

/-- One byte more than the capacity, and no capacity. -/
theorem witness_FeedOverflow :
    (holding [0x00] (.chunk [0x01, 0x02] ref)).fault = false ∧
    ({ holding [0x00] (.chunk [0x01, 0x02] ref) with pendingCap := some 2 } : State).pendingCap = some 2 ∧
    2 < (holding [0x00] (.chunk [0x01, 0x02] ref)).pending.length + [0x01, 0x02].length ∧
    (holding [0x00] (.chunk [0x01, 0x02] ref)).pendingCap = none := by decide

/-- A FEED that drained, and one refused by the capacity from a good state. -/
theorem witness_FeedLeavesNoCompleteFrame :
    (∃ t, exec .feed (holding [0x00] (.chunk [0x02, 0x00] ref)) = .next t ∧
      t.result = some (.feed .noError [])) ∧
    (∃ t, exec .feed { State.reset with pendingCap := some 0, operand := .chunk [0x00] ref } = .next t ∧
      Inv { State.reset with pendingCap := some 0, operand := .chunk [0x00] ref } ∧ t.fault = false) :=
  ⟨⟨_, rfl, rfl⟩, ⟨_, rfl, ⟨⟨rfl, rfl, rfl⟩, fun _ n h => by simp [State.reset, lengthField] at h, rfl, rfl,
    fun r h => by simp [State.reset] at h⟩, rfl⟩⟩

theorem witness_EmptyFeedDoesNothing :
    Inv { asking State.reset 0x0100 .nothing with operand := .chunk [] ref } ∧
    (asking State.reset 0x0100 .nothing).fault = false :=
  ⟨⟨⟨rfl, rfl, rfl⟩, fun _ n h => by simp [asking, State.reset, lengthField] at h, rfl, rfl,
    fun r h => by simp [asking, State.reset] at h⟩, rfl⟩

/-- A good state whose capacity is exactly the stream. -/
theorem witness_ChunkPartitionInvariance :
    Inv { State.reset with pendingCap := some 3 } ∧
    fitsPending (some 3) (State.reset.pending.length + [[0x00], [], [0x01, 0x00]].flatten.length) = true :=
  ⟨⟨⟨rfl, rfl, rfl⟩, fun _ n h => by simp [State.reset, lengthField] at h, rfl, rfl,
    fun r h => by simp [State.reset] at h⟩, rfl⟩

/-- Each frame row with exactly its bytes. -/
theorem witness_ShortConfirmAckAreSilent_MalformedFrameSetsRecord :
    (0 : BitVec 1).toNat + 2 ≤ (frame 0 0).length ∧ (1 : BitVec 1).toNat + 2 ≤ (frame 1 0).length ∧
    4 ≤ (frame 2 0).length ∧ 5 ≤ (frame 3 0).length ∧ (0 : BitVec 2).toNat + 6 ≤ (frame 4 0).length ∧
    (3 : BitVec 2).toNat + 6 ≤ (frame 7 0).length ∧ 10 ≤ (frame 8 0).length := by decide

/-- The shortest and the longest telegram, a pure read among them. -/
theorem witness_TelegramFrameParsed_PureReadEmitsOneEvent :
    ∀ F ∈ [frame 8 0, frame 8 0x81, frame 9 0, frame 255 0x23],
      IsFrame F ∧ 10 ≤ F.length ∧ (holding (F ++ [0x00]) .nothing).pending = F ++ [0x00] := by
  unfold IsFrame
  decide +kernel

/-- Every decode-path row, embedded at 8, extended at 9 and 255. -/
theorem witness_DecodePathEmitsThreeEvents :
    (∀ i ∈ [Instr.telegramWriteEmb 1, .telegramResponseEmb 0, .telegramUnknownEmb 0x23],
      ∃ act, decodePathRow i = some (act, true)) ∧ byteNum (frame 8 0x81) 1 = 8 ∧
    (∀ i ∈ [Instr.telegramReadExt, .telegramWriteExt 0, .telegramResponseExt 1, .telegramUnknownExt 0xFF],
      ∃ act, decodePathRow i = some (act, false)) ∧ byteNum (frame 9 0) 1 = 9 ∧
    byteNum (frame 255 0) 1 = 255 := by
  refine ⟨by simp [decodePathRow], by decide, by simp [decodePathRow], by decide, by decide +kernel⟩

/-- Rows whose frame lacks its last byte, and a row that no length field is there for. -/
theorem witness_IncompleteFrameStays :
    (encode (.frameMalformed 0)).1 ≠ .cmd16 ∧
    (∀ T, rowTotal (frame 4 0).dropLast (.frameMalformed 0) = some T → (frame 4 0).dropLast.length < T) ∧
    (∀ T, rowTotal (frame 9 0).dropLast .telegramReadExt = some T → (frame 9 0).dropLast.length < T) ∧
    (∀ T, rowTotal [0x00] .telegramReadExt = some T → [0x00].length < T) := by
  refine ⟨by decide, fun T h => ?_, fun T h => ?_, fun T h => ?_⟩
  · obtain rfl : 6 = T := by simpa [rowTotal] using h
    decide
  · obtain rfl : 11 = T := Option.some.inj h
    decide
  · simp [rowTotal, lengthField] at h

/-- Two telegrams that differ at the four unread offsets only. -/
theorem witness_UnreadBytesDoNotMatter :
    IsFrame (frame 8 0x81) ∧ (frame 8 0x81).length = [0xFF, 8, 0xFF, 0xFF, 0, 0, 0, 0, 0xFF, 0x81].length ∧
    ∀ k : Nat, k ≠ 0 → k ≠ 2 → k ≠ 3 → k ≠ 8 →
      (frame 8 0x81).getD k 0 = ([0xFF, 8, 0xFF, 0xFF, 0, 0, 0, 0, 0xFF, 0x81] : Bytes).getD k 0 := by
  refine ⟨by unfold IsFrame; decide +kernel, by decide, fun k h0 h2 h3 h8 => ?_⟩
  by_cases hk : k < 10
  · interval_cases k <;> first | contradiction | rfl
  · rw [List.getD_eq_default _ _ (by simp [frame, zeroFrame, frameTotal]; omega),
      List.getD_eq_default _ _ (by simp; omega)]

/-- The lengths at which `ParserPayloadLengths` changes its answer. -/
theorem witness_ParserPayloadLengths :
    ∀ n ∈ ([8, 9, 10, 11, 12, 255] : List Byte), IsFrame (frame n 0x80) ∧ 10 ≤ (frame n 0x80).length := by
  unfold IsFrame
  decide +kernel

theorem witness_CodecIsPure :
    IsCodec .decodeAsDpt232 ∧ IsCodec (.decodeAsUnknown 0) ∧ IsCodec (.decodeGuess 255) ∧
    IsCodec (.encodeUnknown 255) ∧ (atPort (.value (.int 0))).operand = ({ faulted with operand := .value (.int 0) } : State).operand := by
  unfold IsCodec
  decide

/-- A payload of the size of each DECODE_AS row: the statements `DecodeDpt1` to `DecodeDpt232`. -/
theorem witness_decode_operands :
    ∀ row ∈ decodeRows, ∃ P : Bytes, (atPort (.bytesRef P ref)).operand = .bytesRef P ref ∧ P.length = row.2.2 :=
  fun row _ => ⟨List.replicate row.2.2 0, rfl, List.length_replicate⟩

/-- Weekday 0 and weekday 7. -/
theorem witness_DecodeDpt10 :
    byteNum [0x1F, 0x00, 0x00] 0 / 32 = 0 ∧ byteNum [0xE0, 0x00, 0x00] 0 / 32 = 7 := by decide

/-- One byte fewer and one byte more than each size. -/
theorem witness_DecodeLengthMismatch :
    ∀ row ∈ decodeRows, ([] : Bytes).length ≠ row.2.2 ∧
      (List.replicate (row.2.2 + 1) (0 : Byte)).length ≠ row.2.2 := by decide

theorem witness_DecodeUnknownCode_EncodeNotSupported :
    ∀ k ∈ ([0, 15, 17, 231, 233, 255] : List Byte),
      (Instr.decodeAsUnknown k).WellFormed ∧ (Instr.encodeUnknown k).WellFormed ∧
      (atPort (.bytesRef [] ref)).operand = .bytesRef [] ref := by decide

theorem witness_GuessByLengthField :
    (atPort (.bytes [0x41])).operand = .bytes [0x41] ∧ (atPort (.bytes [])).operand = .bytes [] := ⟨rfl, rfl⟩

/-- A value of every right shape at the port: the statements `EncodeDpt1` to `EncodeDpt14`. -/
theorem witness_encode_operands :
    ∀ v ∈ [Native.bool true, .int (-1), .int 65536, .num (1 / 2), .nonFinite, .tuple4 0 0 0 0, .tuple3 1 1 0, .f32 0],
      (atPort (.value v)).operand = .value v := fun _ _ => rfl

theorem witness_EncodeWrongValueShape :
    ∀ i ∈ encodableRows, ∃ v, rightValueShape i v = false := by
  intro i hi
  simp only [encodableRows, List.mem_cons, List.not_mem_nil, or_false] at hi
  rcases hi with rfl | rfl | rfl | rfl | rfl | rfl | rfl | rfl | rfl
  · exact ⟨.int 1, rfl⟩
  all_goals exact ⟨.bool true, rfl⟩

/-- Each type of `EncodeDecodeRoundTrip` at the ends of its range. -/
theorem witness_EncodeDecodeRoundTrip :
    encodeAs 2 (.int 3) = ⟨.noError, [0x03]⟩ ∧ encodeAs 3 (.int 15) = ⟨.noError, [0x0F]⟩ ∧
    encodeAs 5 (.int 255) = ⟨.noError, [0xFF]⟩ ∧ encodeAs 7 (.int 65535) = ⟨.noError, [0xFF, 0xFF]⟩ ∧
    encodeAs 14 (.f32 0xC1200000) = ⟨.noError, [0xC1, 0x20, 0x00, 0x00]⟩ ∧
    encodeAs 10 (.tuple4 7 23 59 59) = ⟨.noError, [0xF7, 0x3B, 0x3B]⟩ ∧
    encodeAs 11 (.tuple3 31 12 89) = ⟨.noError, [0x1F, 0x0C, 0x59]⟩ ∧
    encodeAs 11 (.tuple3 1 1 90) = ⟨.noError, [0x01, 0x01, 0x5A]⟩ ∧
    encodeAs 1 (.bool true) = ⟨.noError, [0x01]⟩ := by decide

/-- The largest encodable value here, the last value at exponent 1 and the first at exponent 2. -/
theorem witness_Dpt9RoundTripError :
    encodeAs 9 (.num (67092479 / 100)) = ⟨.noError, [0x7F, 0xFF]⟩ ∧
    encodeAs 9 (.num (4094 / 100)) = ⟨.noError, [0x0F, 0xFF]⟩ ∧
    encodeAs 9 (.num (4095 / 100)) = ⟨.noError, [0x14, 0x00]⟩ ∧
    encodeAs 9 (.num (-4097 / 100)) = ⟨.noError, [0x88, 0x00]⟩ := by decide +kernel

/-- The range of `EncodeDpt9Range` from both sides, at both ends. -/
theorem witness_EncodeDpt9Range :
    ((-67125248 / 100 : Rat) ≤ -67125248 / 100 ∧ (-67125248 / 100 : Rat) < 67092480 / 100) ∧
    ¬ ((-67125248 / 100 : Rat) ≤ 67092480 / 100 ∧ (67092480 / 100 : Rat) < 67092480 / 100) ∧
    ¬ ((-67125248 / 100 : Rat) ≤ -67125249 / 100 ∧ (-67125249 / 100 : Rat) < 67092480 / 100) := by
  norm_num

/-- Each command with a record of another command's shape. -/
theorem witness_WrongRecordShapeIsIllegal :
    ∀ i ∈ [Instr.feed, .decodeAsDpt1, .decodeGuess 8, .encodeDpt1, .status, .reset], ∃ operand,
      (encode i).1 = .cmd16 ∧ rightRecordShape (hiByte (encode i).2) (atPort operand).operand = false := by
  intro i hi
  simp only [List.mem_cons, List.not_mem_nil, or_false] at hi
  rcases hi with rfl | rfl | rfl | rfl | rfl | rfl
  · exact ⟨.nothing, rfl, by decide⟩
  · exact ⟨.bytes [], rfl, by decide⟩
  · exact ⟨.bytesRef [] ref, rfl, by decide⟩
  · exact ⟨.nothing, rfl, by decide⟩
  · exact ⟨.value (.int 0), rfl, by decide⟩
  · exact ⟨.chunk [] ref, rfl, by decide⟩

theorem witness_StatusShowsRecord_ResetGivesNewInstance : faulted.operand = .nothing := rfl

end Sys2Proof.Tests
end

/-! # The invariant and the Decoded Result (`00_scope.md`)

One lemma for each way a command can end (`exec_command_cases`): it only answers, or it is RESET, or it is a
FEED that drains. -/

namespace Sys2Proof.Machine

/-! ## What each kind of command keeps of the invariant -/

/-- Answering with a filled result keeps the invariant: no other field changes. -/
theorem Inv.reply {s : State} {r : Result} (h : Inv s) (hr : r.Filled) : Inv (s.reply r) where
  record := h.record
  drained := h.drained
  capacity := h.capacity
  noEvents := h.noEvents
  filled := by simpa using hr

/-- Taking a request from the port writes no field the invariant speaks of (R37). -/
theorem Inv.latchRequest {s : State} (h : Inv s) (r : Request) (rest : List Request) :
    Inv (latchRequest r rest s) where
  record := h.record
  drained := h.drained
  capacity := h.capacity
  noEvents := h.noEvents
  filled := h.filled

/-- RESET keeps the invariant: the empty accumulator fits and holds no frame, and the record is clear (R223). -/
theorem Inv.resetBlock {s : State} (h : Inv s) : Inv (resetBlock s) where
  record := by simp [FaultRecordOk]
  drained := fun _ => completeFrame_eq_none.1 rfl
  capacity := fitsPending_mono (Nat.zero_le _) h.capacity
  noEvents := h.noEvents
  filled := h.filled

/-- A FEED that drains keeps the invariant: what the drain leaves is good (`feedDrain_good`), and is no longer
than the bytes that fitted before it (R23). -/
theorem Inv.feed {s : State} {chunk : Bytes} (h : Inv s) (hf : s.fault = false)
    (hfit : fitsPending s.pendingCap (s.pending.length + chunk.length) = true) (ref : Ref) :
    Inv (endFeed (feedDrain (beginFeed chunk ref s))) := by
  obtain ⟨hrecord, hdrained, hfilled⟩ :=
    feedDrain_good (beginFeed chunk ref s) (by simpa using hf) h.record (by simp)
  obtain ⟨hcap, -, -, -, -, -, hlen⟩ := feedDrain_keeps (beginFeed chunk ref s)
  exact {
    record := hrecord
    drained := hdrained
    capacity := by
      simp only [endFeed_pendingCap, endFeed_pending, hcap, beginFeed_pendingCap]
      exact fitsPending_mono (by simpa using hlen) hfit
    noEvents := rfl
    filled := by simpa [Result.Filled] using hfilled }

/-- A command that only answers keeps the invariant. -/
theorem Inv.answersOnly {s t : State} (h : Inv s) (ht : AnswersOnly s t) : Inv t := by
  obtain ⟨r, rfl, hr, -⟩ := ht
  exact h.reply hr

/-- Every command keeps the invariant. -/
theorem Inv.exec_command {w : Word} {s t : State} (h : Inv s) (he : exec (decodeCommand w) s = .next t) :
    Inv t := by
  rcases exec_command_cases he with ha | ⟨-, -, rfl⟩ | ⟨-, chunk, ref, -, hf, hfit, rfl⟩
  · exact h.answersOnly ha
  · exact h.resetBlock.reply trivial
  · exact h.feed hf hfit ref

/-- Inversion of a step: without a request it waits (R262, log entry 1), else it executes the oldest one (R220). -/
theorem step_cases {s t : State} (h : step s = .next t) :
    (s.port = [] ∧ t = s) ∨
    ∃ r rest, s.port = r :: rest ∧ exec (decodeCommand r.cmd) (latchRequest r rest s) = .next t := by
  unfold step at h
  split at h
  · next hp => exact .inl ⟨hp, (Host.Outcome.next.inj h).symm⟩
  · next r rest hp => exact .inr ⟨r, rest, hp, h⟩

/-! ## The obligations -/

/-- Settles O12: a step waits, or takes a request and executes its command; each keeps the invariant. -/
theorem stepKeepsInvariant : Obligations.StepKeepsInvariant := by
  intro s t h hs
  rcases step_cases hs with ⟨-, rfl⟩ | ⟨r, rest, -, he⟩
  · exact h
  · exact (h.latchRequest r rest).exec_command he

/-- Settles O11: at reset the record is clear, and the accumulator, the event list and the result are empty. -/
theorem invariantAtReset : Obligations.InvariantAtReset where
  record := ⟨rfl, rfl, rfl⟩
  drained := fun _ => completeFrame_eq_none.1 rfl
  capacity := rfl
  noEvents := rfl
  filled := by simp [State.reset]

/-- A filled Decoded Result, in the words of R12: no error exactly when the value is not missing. -/
theorem Decoded.filled_iff {R : Decoded} : R.Filled ↔ (R.err = .noError ↔ R.value ≠ none) := by
  rw [Decoded.Filled, Option.isSome_iff_ne_none]

/-- Settles O31: both entry points answer only filled results (`decodeAs_filled`, `decodeGuessed_filled`). -/
theorem decodedNeverPartiallyFilled : Obligations.DecodedNeverPartiallyFilled :=
  ⟨fun k P ref => Decoded.filled_iff.1 (decodeAs_filled k P ref),
    fun n P => Decoded.filled_iff.1 (decodeGuessed_filled n P)⟩

end Sys2Proof.Machine

/-! # The state block: who writes it, and what a FEED leaves in it (`10_state.md`)

A step either leaves the accumulator and the fault record as they are, or runs a RESET or a draining FEED
(`step_writes_block`). The statements on the fault follow from that one case split. -/

namespace Sys2Proof.Machine

open Sys2Proof.Claims

/-! ## One step (R220, R262) -/

/-- A step with a request at the front of the port executes its command (R220). -/
theorem step_of_request {s : State} {r : Request} {rest : List Request} (h : s.port = r :: rest) :
    step s = exec (decodeCommand r.cmd) (latchRequest r rest s) := by
  simp only [step, h]

/-- A step with no request changes nothing (log entry 1). -/
theorem step_of_idle {s : State} (h : s.port = []) : step s = .next s := by
  simp only [step, h]

/-- Settles O6, by the two cases of `step`; the latched state is `latchRequest`. -/
theorem stepRunsDecodedCommand : Obligations.StepRunsDecodedCommand :=
  ⟨fun _ _ _ h => step_of_request h, fun _ h => step_of_idle h⟩

/-! ## Who writes the accumulator and the fault record (R21) -/

/-- `t` has the accumulator and the fault record of `s` (the state of R20). -/
def SameBlock (s t : State) : Prop :=
  t.pending = s.pending ∧ t.fault = s.fault ∧ t.faultCause = s.faultCause ∧ t.faultLen = s.faultLen ∧
    t.faultFrame = s.faultFrame

/-- Taking a request and answering it writes nothing of the block. -/
theorem sameBlock_of_answersOnly {s t : State} {r : Request} {rest : List Request}
    (h : AnswersOnly (latchRequest r rest s) t) : SameBlock s t := by
  obtain ⟨_, rfl, -⟩ := h
  exact ⟨rfl, rfl, rfl, rfl, rfl⟩

/-- A step leaves the block as it is, or it runs a RESET with no operands, or a FEED from `FAULT = 0` that
drains (R21, R240). -/
theorem step_writes_block {s t : State} (h : step s = .next t) :
    SameBlock s t ∨ ∃ r rest, s.port = r :: rest ∧
      ((r.cmd = 0x0600 ∧ r.operand = .nothing ∧
          t = (resetBlock (latchRequest r rest s)).reply (.plain .noError)) ∨
        (r.cmd = 0x0100 ∧ s.fault = false ∧
          ∃ chunk ref, t = endFeed (feedDrain (beginFeed chunk ref (latchRequest r rest s))))) := by
  rcases step_cases h with ⟨-, rfl⟩ | ⟨r, rest, hp, he⟩
  · exact .inl ⟨rfl, rfl, rfl, rfl, rfl⟩
  · rcases exec_command_cases he with ha | ⟨hw, hop, ht⟩ | ⟨hw, chunk, ref, -, hf, -, ht⟩
    · exact .inl (sameBlock_of_answersOnly ha)
    · exact .inr ⟨r, rest, hp, .inl ⟨hw, hop, ht⟩⟩
    · exact .inr ⟨r, rest, hp, .inr ⟨hw, hf, chunk, ref, ht⟩⟩

/-- Settles O15: the two ways to write the block (`step_writes_block`) have the excluded command words. -/
theorem blockWrittenOnlyByFeedAndReset : Obligations.BlockWrittenOnlyByFeedAndReset := by
  intro s t h hother
  rcases step_writes_block h with hsame | ⟨r, rest, hp, ⟨hreset, -⟩ | ⟨hfeed, -⟩⟩
  · exact hsame
  · exact absurd hreset (hother r rest hp).2
  · exact absurd hfeed (hother r rest hp).1

/-- Settles O14: a FEED drains only from `FAULT = 0`, so with the fault set only RESET writes the block. -/
theorem faultIsSticky : Obligations.FaultIsSticky := by
  intro s t hf h
  rcases step_writes_block h with
    ⟨hpending, hfault, hrecord⟩ | ⟨⟨cmd, operand, L⟩, rest, hp, ⟨rfl, rfl, -⟩ | ⟨-, hf', -⟩⟩
  · exact .inr ⟨hpending, hfault.trans hf, hrecord⟩
  · exact .inl ⟨L, rest, hp⟩
  · simp [hf] at hf'

/-- Settles O13: RESET leaves the fault clear, and a FEED that drains starts from it clear and answers
MalformedFrame exactly when it ends with it set (`endFeed_result`). -/
theorem faultSetByFeedClearedByReset : Obligations.FaultSetByFeedClearedByReset := by
  intro s t h hne
  rcases step_writes_block h with
    ⟨-, hfault, -⟩ | ⟨r, rest, hp, ⟨hw, hop, rfl⟩ | ⟨hw, hf, chunk, ref, rfl⟩⟩
  · exact absurd hfault hne
  · have hf : s.fault = true := by simpa using hne.symm
    exact ⟨r, rest, hp, .inr ⟨hf, hw, hop⟩⟩
  · have hset : (feedDrain (beginFeed chunk ref (latchRequest r rest s))).fault = true := by
      simpa [hf] using hne
    exact ⟨r, rest, hp, .inl ⟨hf, hw, _, by rw [endFeed_result, if_pos hset]⟩⟩

/-! ## What a FEED leaves (R22) -/

/-- A drain that ends without a fault has taken every complete frame, from any state (R101, R106). -/
theorem feedDrain_noCompleteFrame (s : State) :
    (feedDrain s).fault = false → NoCompleteFrame (feedDrain s).pending := by
  apply feedDrain_induct (Q := fun _ t => t.fault = false → NoCompleteFrame t.pending)
  case stop => exact fun s h _ => completeFrame_eq_none.1 h
  case bad => exact fun s n _ hset hclear => absurd hset (by simp [hclear])
  case pass => exact fun s n t _ _ ih => ih

/-- Inversion of FEED: it is refused with an answer other than NONE, or it appends its chunk and drains
(R73, R100, R240). -/
theorem feedCommand_cases (s : State) :
    (∃ r, feedCommand s = s.reply r ∧ ∀ events, r ≠ .feed .noError events) ∨
    (∃ chunk ref, s.operand = .chunk chunk ref ∧ s.fault = false ∧
      fitsPending s.pendingCap (s.pending.length + chunk.length) = true ∧
      feedCommand s = endFeed (feedDrain (beginFeed chunk ref s))) := by
  unfold feedCommand
  split
  · next chunk ref hop =>
    unfold feedChunk
    split
    · exact .inl ⟨_, rfl, by simp⟩
    · next hf =>
      split
      · next hfit => exact .inr ⟨chunk, ref, hop, by simpa using hf, hfit, rfl⟩
      · exact .inl ⟨_, rfl, by simp⟩
  all_goals exact .inl ⟨_, illegalCommand_eq s, by simp⟩

/-- A FEED that answers NONE leaves no complete frame, from any state (R22). -/
theorem noCompleteFrame_of_feed_noError {s : State} {events : List Event}
    (h : (feedCommand s).result = some (.feed .noError events)) :
    NoCompleteFrame (feedCommand s).pending := by
  rcases feedCommand_cases s with ⟨r, e, hr⟩ | ⟨chunk, ref, -, -, -, e⟩
  · rw [e, reply_result] at h
    exact absurd (Option.some.inj h) (hr events)
  · rw [e] at h ⊢
    have hclear : (feedDrain (beginFeed chunk ref s)).fault = false := by
      by_contra hset
      simp [hset] at h
    exact feedDrain_noCompleteFrame _ hclear

/-- No complete frame, with byte 1 read as a number (R22). -/
theorem NoCompleteFrame.length_lt {bs : Bytes} (h : NoCompleteFrame bs) :
    bs.length < 2 ∨ bs.length < byteNum bs 1 + 2 := by
  cases hl : lengthField bs with
  | none => exact .inl (lengthField_eq_none.1 hl)
  | some n =>
    have hlt := h n hl
    obtain ⟨a, rest, rfl⟩ := lengthField_eq_some.1 hl
    exact .inr hlt

/-- Settles O19: a FEED that answers NONE has drained (`noCompleteFrame_of_feed_noError`), and any FEED keeps
the invariant, which has the same clause. -/
theorem feedLeavesNoCompleteFrame : Obligations.FeedLeavesNoCompleteFrame := by
  intro s t he hend
  have hn : NoCompleteFrame t.pending := by
    rcases hend with ⟨events, hr⟩ | ⟨hs, hf⟩
    · obtain rfl : feedCommand s = t := Host.Outcome.next.inj he
      exact noCompleteFrame_of_feed_noError hr
    · exact (hs.exec_command (w := 0x0100) he).drained hf
  exact ⟨hn.length_lt, hn.length_le⟩

/-! ## The codec commands (R36) -/

/-- A command that answers from its operand record alone: one answer for each record, whatever else the
state holds, and no other write. -/
def AnswersFromOperand (f : State → State) : Prop :=
  ∀ operand : Operand, ∃ r, ∀ s : State, s.operand = operand → f s = s.reply r

/-- DECODE_AS answers from its operand record (R36, R141). -/
theorem decodeAsCommand_answersFromOperand (k : Byte) : AnswersFromOperand (decodeAsCommand k) := by
  intro operand
  cases operand with
  | bytesRef P ref => exact ⟨_, fun s h => decodeAsCommand_of h⟩
  | chunk | bytes | value | nothing =>
    exact ⟨.plain .illegalCommand, fun s h => by simp only [decodeAsCommand, h, illegalCommand_eq]⟩

/-- DECODE_GUESS answers from its operand record (R36, R185). -/
theorem decodeGuessCommand_answersFromOperand (n : Byte) : AnswersFromOperand (decodeGuessCommand n) := by
  intro operand
  cases operand with
  | bytes P => exact ⟨_, fun s h => decodeGuessCommand_of h⟩
  | chunk | bytesRef | value | nothing =>
    exact ⟨.plain .illegalCommand, fun s h => by simp only [decodeGuessCommand, h, illegalCommand_eq]⟩

/-- ENCODE answers from its operand record (R36, R200). -/
theorem encodeCommand_answersFromOperand (k : Byte) : AnswersFromOperand (encodeCommand k) := by
  intro operand
  cases operand with
  | value v => exact ⟨_, fun s h => encodeCommand_of h⟩
  | chunk | bytesRef | bytes | nothing =>
    exact ⟨.plain .illegalCommand, fun s h => by simp only [encodeCommand, h, illegalCommand_eq]⟩

/-- Every codec instruction is one of the three codec commands, so it answers from its operand record. -/
theorem exec_codec {i : Instr} (h : IsCodec i) :
    ∃ f, AnswersFromOperand f ∧ ∀ s, exec i s = .next (f s) := by
  obtain ⟨hwf, hfmt, hop⟩ := h
  cases i with
  | decodeAsDpt1 | decodeAsDpt2 | decodeAsDpt3 | decodeAsDpt4 | decodeAsDpt5 | decodeAsDpt6 | decodeAsDpt7
  | decodeAsDpt8 | decodeAsDpt9 | decodeAsDpt10 | decodeAsDpt11 | decodeAsDpt12 | decodeAsDpt13
  | decodeAsDpt14 | decodeAsDpt16 | decodeAsDpt232 | decodeAsUnknown =>
    exact ⟨_, decodeAsCommand_answersFromOperand _, fun _ => rfl⟩
  | decodeGuess n => exact ⟨_, decodeGuessCommand_answersFromOperand n, fun _ => rfl⟩
  | encodeDpt1 | encodeDpt2 | encodeDpt3 | encodeDpt4 | encodeDpt5 | encodeDpt6 | encodeDpt7 | encodeDpt8
  | encodeDpt9 | encodeDpt10 | encodeDpt11 | encodeDpt12 | encodeDpt13 | encodeDpt14 | encodeDpt16
  | encodeDpt232 | encodeUnknown =>
    exact ⟨_, encodeCommand_answersFromOperand _, fun _ => rfl⟩
  | feed | status | reset => exact absurd hop (by decide)
  | illegal op arg =>
    rw [encode, hiByte_wordOf] at hop
    rcases hop with rfl | rfl | rfl <;> simp [Instr.WellFormed, Instr.wellFormed, legalCommand] at hwf
  | frameShort | frameConfirm | frameAck | frameMalformed | frameTelegram | telegramReadPure
  | telegramWriteEmb | telegramResponseEmb | telegramUnknownEmb | telegramReadExt | telegramWriteExt
  | telegramResponseExt | telegramUnknownExt => simp [encode] at hfmt

/-- Settles O30: the answer is the one that the common operand record determines (`exec_codec`). -/
theorem codecIsPure : Obligations.CodecIsPure := by
  intro i s u hi hsu
  obtain ⟨f, hf, hexec⟩ := exec_codec hi
  obtain ⟨r, hr⟩ := hf u.operand
  exact ⟨r, by rw [hexec, hr s hsu]; rfl, by rw [hexec, hr u rfl]; rfl⟩

end Sys2Proof.Machine

/-! # Bytes in memory: an empty FEED, and the bytes that no rule reads (`20_memory.md`)

An empty FEED drains an accumulator that is already drained (R59). A telegram's next state is its events
(`exec_frameTelegram_isFrame`), and they are determined by the bytes that the parser reads (R51, R103). -/

namespace Sys2Proof.Machine

open Sys2Proof.Claims

/-! ## An empty FEED (R59) -/

/-- A FEED that is not refused appends its chunk, drains and answers (R100, R240). -/
theorem feedChunk_of_fits {s : State} {chunk : Bytes} (ref : Ref) (hf : s.fault = false)
    (hfit : fitsPending s.pendingCap (s.pending.length + chunk.length) = true) :
    feedChunk chunk ref s = endFeed (feedDrain (beginFeed chunk ref s)) := by
  simp only [feedChunk, hf, hfit, Bool.false_eq_true, if_false, if_true]

/-- Beginning a FEED of no bytes only takes `REF`, when no events are kept (R35, R59). -/
theorem beginFeed_nil {s : State} (ref : Ref) (he : s.events = []) :
    beginFeed [] ref s = { s with ref := ref } := by
  simp only [beginFeed, List.append_nil, ← he]

/-- Ending a FEED that has no event and no fault answers NONE, and changes nothing else (R100). -/
theorem endFeed_of_silent {s : State} (hf : s.fault = false) (he : s.events = []) :
    endFeed s = s.reply (.feed .noError []) := by
  simp only [endFeed, State.reply, hf, Bool.false_eq_true, if_false, ← he]

/-- Settles O20: with no complete frame in `PENDING` (R22), the drain of an empty FEED does nothing. -/
theorem emptyFeedDoesNothing : Obligations.EmptyFeedDoesNothing := by
  intro s ref h hf hop
  have hdrain : feedDrain { s with ref := ref } = { s with ref := ref } :=
    feedDrain_of_none (completeFrame_eq_none.2 (h.drained hf))
  calc exec .feed s = .next (feedChunk [] ref s) := execFeed_of hop
    _ = .next (endFeed (feedDrain (beginFeed [] ref s))) := by
      rw [feedChunk_of_fits (chunk := []) ref hf h.capacity]
    _ = .next (endFeed { s with ref := ref }) := by rw [beginFeed_nil ref h.noEvents, hdrain]
    _ = .next { s with ref := ref, result := some (.feed .noError []) } :=
      congrArg Host.Outcome.next (endFeed_of_silent hf h.noEvents)

/-! ## A telegram at the front of the accumulator (R102, R107) -/

/-- A whole frame's length field is its byte 1 (R75). -/
theorem lengthField_isFrame {F : Bytes} (h : IsFrame F) : lengthField F = some (F.getD 1 0) := by
  obtain ⟨hlen, -⟩ := h
  match F, hlen with
  | _ :: _ :: _, _ => rfl

/-- A whole frame has the total length its byte 1 declares (R75). -/
theorem frameTotal_isFrame {F : Bytes} (h : IsFrame F) : frameTotal (F.getD 1 0) = F.length := h.2.symm

/-- A telegram has a length field of at least 8 (R107). -/
theorem eight_le_lengthField {F : Bytes} (h : IsFrame F) (hten : 10 ≤ F.length) : 8 ≤ (F.getD 1 0).toNat := by
  have hT := frameTotal_isFrame h
  unfold frameTotal at hT
  omega

/-- A whole frame is the complete frame at the front of any bytes it begins (R101). -/
theorem completeFrame_isFrame {F : Bytes} (rest : Bytes) (h : IsFrame F) :
    completeFrame (F ++ rest) = some (F.getD 1 0) :=
  completeFrame_append rest (completeFrame_eq_some.2 ⟨lengthField_isFrame h, (frameTotal_isFrame h).le⟩)

/-- The telegram row over a whole telegram consumes it and emits its events (R102, R107 to R114). -/
theorem exec_frameTelegram_isFrame {F : Bytes} (rest : Bytes) (s : State) (h : IsFrame F)
    (hten : 10 ≤ F.length) :
    exec (.frameTelegram (F.getD 1 0)) { s with pending := F ++ rest } =
      .next ((s.setPending rest).emit (telegramEvents s.lookup s.ref (F.getD 1 0) F)) := by
  refine congrArg Host.Outcome.next ?_
  rw [runFrameTelegram_complete (completeFrame_isFrame rest h) (eight_le_lengthField h hten),
    frameTotal_isFrame h]
  simp only [List.take_left, List.drop_left]
  rfl

/-! ## The bytes that the parser reads (R51, R103) -/

/-- Two telegrams of one length that agree at every offset but 0, 2, 3 and 8, which no rule reads (R51). -/
structure SameReadBytes (F G : Bytes) : Prop where
  length : F.length = G.length
  bytes : ∀ k : Nat, k ≠ 0 → k ≠ 2 → k ≠ 3 → k ≠ 8 → byteAt F k = byteAt G k

/-- The source address is read from offsets 4 and 5 (R107). -/
theorem SameReadBytes.sourceOf {F G : Bytes} (h : SameReadBytes F G) : sourceOf F = sourceOf G := by
  simp [Machine.sourceOf, u16be, h.bytes]

/-- The destination address is read from offsets 6 and 7 (R107). -/
theorem SameReadBytes.destinationOf {F G : Bytes} (h : SameReadBytes F G) :
    destinationOf F = destinationOf G := by
  simp [Machine.destinationOf, u16be, h.bytes]

/-- The control byte is read from offset 9 (R77). -/
theorem SameReadBytes.controlOf {F G : Bytes} (h : SameReadBytes F G) : controlOf F = controlOf G := by
  simp [Machine.controlOf, h.bytes]

/-- From offset 9 on the two telegrams are the same. -/
theorem SameReadBytes.drop {F G : Bytes} (h : SameReadBytes F G) {i : Nat} (hi : 9 ≤ i) :
    F.drop i = G.drop i := by
  refine List.ext_getElem (by simp [h.length]) fun k hF hG => ?_
  rw [List.length_drop] at hF hG
  have hk := h.bytes (i + k) (by omega) (by omega) (by omega) (by omega)
  simpa [byteAt, List.getD_eq_getElem, (by omega : i + k < F.length), (by omega : i + k < G.length)] using hk

/-- The payload is read from offset 9 on, in the embedded and in the extended form (R109, R110). -/
theorem SameReadBytes.payloadOf {F G : Bytes} (h : SameReadBytes F G) {n : Byte} (hn : 8 ≤ n.toNat) :
    payloadOf n F = payloadOf n G := by
  unfold Machine.payloadOf
  split
  · have hlast : 9 ≤ frameTotal n - 1 := by
      unfold frameTotal
      omega
    rw [h.bytes _ (by omega) (by omega) (by omega) (by omega)]
  · rw [List.drop_take, List.drop_take, h.drop (by omega)]

/-- The events of a telegram come from its addresses, its control byte and its payload (R113, R114). -/
theorem SameReadBytes.telegramEvents {F G : Bytes} (h : SameReadBytes F G) {n : Byte} (hn : 8 ≤ n.toNat)
    (L : Lookup) (ref : Ref) : telegramEvents L ref n F = telegramEvents L ref n G := by
  simp only [Machine.telegramEvents, pureReadEvents, decodePathEvents, h.sourceOf, h.destinationOf,
    h.controlOf, h.payloadOf hn]

/-- Settles O28: both telegrams are consumed, and the bytes they agree on determine their events. -/
theorem unreadBytesDoNotMatter : Obligations.UnreadBytesDoNotMatter := by
  intro F G rest s hF hten hlen hbytes
  have h : SameReadBytes F G := ⟨hlen, hbytes⟩
  have hone : F.getD 1 0 = G.getD 1 0 := hbytes 1 (by decide) (by decide) (by decide) (by decide)
  have hG : IsFrame G := by
    unfold IsFrame byteNum
    rw [← hlen, ← hone]
    exact hF
  have hten' : 10 ≤ G.length := hlen ▸ hten
  rw [exec_frameTelegram_isFrame rest s hF hten, exec_frameTelegram_isFrame rest s hG hten', hone,
    h.telegramEvents (eight_le_lengthField hG hten')]

end Sys2Proof.Machine

/-! # Decode and encode (`30_encoding.md`)

Each format's decoder answers, branch by branch, a well-formed instruction whose word is the one it was given
(`encode_decodeCommand` and its three like). With the law of each row in the other direction
(`Laws.RoundTrip`), decode and encode are inverse. -/

namespace Sys2Proof

/-- Every row decodes the word of its instruction, by the law of that row. -/
theorem decode_encode {i : Instr} : i.WellFormed → decode (encode i).1 (encode i).2 = .ok i := by
  cases i with
  | feed => exact Laws.RoundTrip.feed
  | decodeAsDpt1 => exact Laws.RoundTrip.decodeAsDpt1
  | decodeAsDpt2 => exact Laws.RoundTrip.decodeAsDpt2
  | decodeAsDpt3 => exact Laws.RoundTrip.decodeAsDpt3
  | decodeAsDpt4 => exact Laws.RoundTrip.decodeAsDpt4
  | decodeAsDpt5 => exact Laws.RoundTrip.decodeAsDpt5
  | decodeAsDpt6 => exact Laws.RoundTrip.decodeAsDpt6
  | decodeAsDpt7 => exact Laws.RoundTrip.decodeAsDpt7
  | decodeAsDpt8 => exact Laws.RoundTrip.decodeAsDpt8
  | decodeAsDpt9 => exact Laws.RoundTrip.decodeAsDpt9
  | decodeAsDpt10 => exact Laws.RoundTrip.decodeAsDpt10
  | decodeAsDpt11 => exact Laws.RoundTrip.decodeAsDpt11
  | decodeAsDpt12 => exact Laws.RoundTrip.decodeAsDpt12
  | decodeAsDpt13 => exact Laws.RoundTrip.decodeAsDpt13
  | decodeAsDpt14 => exact Laws.RoundTrip.decodeAsDpt14
  | decodeAsDpt16 => exact Laws.RoundTrip.decodeAsDpt16
  | decodeAsDpt232 => exact Laws.RoundTrip.decodeAsDpt232
  | decodeAsUnknown k => exact Laws.RoundTrip.decodeAsUnknown k
  | decodeGuess n => exact Laws.RoundTrip.decodeGuess n
  | encodeDpt1 => exact Laws.RoundTrip.encodeDpt1
  | encodeDpt2 => exact Laws.RoundTrip.encodeDpt2
  | encodeDpt3 => exact Laws.RoundTrip.encodeDpt3
  | encodeDpt5 => exact Laws.RoundTrip.encodeDpt5
  | encodeDpt7 => exact Laws.RoundTrip.encodeDpt7
  | encodeDpt9 => exact Laws.RoundTrip.encodeDpt9
  | encodeDpt10 => exact Laws.RoundTrip.encodeDpt10
  | encodeDpt11 => exact Laws.RoundTrip.encodeDpt11
  | encodeDpt14 => exact Laws.RoundTrip.encodeDpt14
  | encodeDpt4 => exact Laws.RoundTrip.encodeDpt4
  | encodeDpt6 => exact Laws.RoundTrip.encodeDpt6
  | encodeDpt8 => exact Laws.RoundTrip.encodeDpt8
  | encodeDpt12 => exact Laws.RoundTrip.encodeDpt12
  | encodeDpt13 => exact Laws.RoundTrip.encodeDpt13
  | encodeDpt16 => exact Laws.RoundTrip.encodeDpt16
  | encodeDpt232 => exact Laws.RoundTrip.encodeDpt232
  | encodeUnknown k => exact Laws.RoundTrip.encodeUnknown k
  | status => exact Laws.RoundTrip.status
  | reset => exact Laws.RoundTrip.reset
  | illegal op arg => exact Laws.RoundTrip.illegal op arg
  | frameShort b => exact Laws.RoundTrip.frameShort b
  | frameConfirm => exact Laws.RoundTrip.frameConfirm
  | frameAck => exact Laws.RoundTrip.frameAck
  | frameMalformed j => exact Laws.RoundTrip.frameMalformed j
  | frameTelegram n => exact Laws.RoundTrip.frameTelegram n
  | telegramReadPure => exact Laws.RoundTrip.telegramReadPure
  | telegramWriteEmb b => exact Laws.RoundTrip.telegramWriteEmb b
  | telegramResponseEmb b => exact Laws.RoundTrip.telegramResponseEmb b
  | telegramUnknownEmb c => exact Laws.RoundTrip.telegramUnknownEmb c
  | telegramReadExt => exact Laws.RoundTrip.telegramReadExt
  | telegramWriteExt b => exact Laws.RoundTrip.telegramWriteExt b
  | telegramResponseExt b => exact Laws.RoundTrip.telegramResponseExt b
  | telegramUnknownExt c => exact Laws.RoundTrip.telegramUnknownExt c

/-- Settles O1: each row has its law (`decode_encode`). -/
theorem decodeOfEncode : Obligations.DecodeOfEncode := fun _ => decode_encode

/-- Settles O5: twelve closed words, evaluated. -/
theorem sampleWordsDecode : Obligations.SampleWordsDecode := by
  unfold Obligations.SampleWordsDecode
  decide

/-! ## The word of a decoded instruction -/

/-- A well-formed instruction that encodes to the word `w` of the format `f`. -/
def IsInstrOf (f : Format) (w : Word) (i : Instr) : Prop := i.WellFormed ∧ encode i = (f, w)

/-- The row of a recognised code has the word of that code (R79, R80). -/
theorem decodeAsRow_isInstrOf (d : Dpt) : IsInstrOf .cmd16 (wordOf 0x02 d.code) (decodeAsRow d) := by
  cases d <;> exact ⟨rfl, rfl⟩

/-- The row of a recognised code has the word of that code (R79, R80). -/
theorem encodeRow_isInstrOf (d : Dpt) : IsInstrOf .cmd16 (wordOf 0x04 d.code) (encodeRow d) := by
  cases d <;> exact ⟨rfl, rfl⟩

/-- A code that names no type is not recognised (R81). -/
theorem not_recognised_of_ofCode {k : Byte} (h : Dpt.ofCode k = none) :
    (!recognisedCodes.contains k) = true := by
  rw [(ofCode_eq_none_iff k).1 h, Bool.not_false]

/-- The illegal words, as R72 lists them. -/
theorem legalCommand_eq_false_iff (op arg : Byte) : legalCommand op arg = false ↔
    (op = 0x00 ∨ 0x07 ≤ op.toNat ∨ ((op = 0x01 ∨ op = 0x05 ∨ op = 0x06) ∧ arg ≠ 0)) := by
  simp only [legalCommand, Bool.or_eq_false_iff, Bool.and_eq_false_iff, beq_eq_false_iff_ne]
  bv_omega

/-- A command word is the word of the command it decodes to (R70 to R72, R80). -/
theorem decodeCommand_isInstrOf (w : Word) : IsInstrOf .cmd16 w (decodeCommand w) := by
  obtain ⟨op, arg, rfl⟩ : ∃ op arg, w = wordOf op arg := ⟨_, _, (wordOf_hi_lo w).symm⟩
  rw [decodeCommand_wordOf]
  split
  · next h => obtain ⟨rfl, rfl⟩ := h; exact ⟨rfl, rfl⟩
  split
  · next h =>
    subst h
    split
    · next d hd => exact code_of_ofCode hd ▸ decodeAsRow_isInstrOf d
    · next hk => exact ⟨not_recognised_of_ofCode hk, rfl⟩
  split
  · next h => subst h; exact ⟨rfl, rfl⟩
  split
  · next h =>
    subst h
    split
    · next d hd => exact code_of_ofCode hd ▸ encodeRow_isInstrOf d
    · next hk => exact ⟨not_recognised_of_ofCode hk, rfl⟩
  split
  · next h => obtain ⟨rfl, rfl⟩ := h; exact ⟨rfl, rfl⟩
  split
  · next h => obtain ⟨rfl, rfl⟩ := h; exact ⟨rfl, rfl⟩
  · next h1 h2 h3 h4 h5 h6 =>
    have hl : legalCommand op arg = false := (legalCommand_eq_false_iff op arg).2 (by bv_omega)
    exact ⟨by rw [Instr.WellFormed, Instr.wellFormed, hl, Bool.not_false], rfl⟩

/-- A length byte is the word of the frame row it decodes to (R76). -/
theorem decodeFrameLen_isInstrOf (n : Byte) : IsInstrOf .frameLen (wordOf 0 n) (decodeFrameLen n) := by
  unfold decodeFrameLen
  split
  · obtain rfl | rfl : n = 0 ∨ n = 1 := by bv_omega
    all_goals exact ⟨rfl, rfl⟩
  split
  · next h => subst h; exact ⟨rfl, rfl⟩
  split
  · next h => subst h; exact ⟨rfl, rfl⟩
  split
  · obtain rfl | rfl | rfl | rfl : n = 4 ∨ n = 5 ∨ n = 6 ∨ n = 7 := by bv_omega
    all_goals exact ⟨rfl, rfl⟩
  · next h => exact ⟨decide_eq_true (by omega), rfl⟩

/-- A control byte that is none of R78's five names no action. -/
theorem not_actionByte {c : Byte} (h0 : c ≠ 0x00) (hw : ¬(c = 0x80 ∨ c = 0x81))
    (hr : ¬(c = 0x40 ∨ c = 0x41)) : (!actionBytes.contains c) = true := by
  simp_all [actionBytes]

/-- A telegram key is the word of the embedded row that its control byte decodes to (R78, R92). -/
theorem decodeEmbedded_isInstrOf (c : Byte) :
    IsInstrOf .telegramEmbedded (wordOf 8 c) (decodeEmbedded c) := by
  unfold decodeEmbedded
  split
  · next h => subst h; exact ⟨rfl, rfl⟩
  split
  · next h => rcases h with rfl | rfl <;> exact ⟨rfl, rfl⟩
  split
  · next h => rcases h with rfl | rfl <;> exact ⟨rfl, rfl⟩
  · next h0 hw hr => exact ⟨not_actionByte h0 hw hr, rfl⟩

/-- A control byte is the word of the extended row that it decodes to (R78, R92). -/
theorem decodeExtended_isInstrOf (c : Byte) :
    IsInstrOf .telegramExtended (wordOf 0 c) (decodeExtended c) := by
  unfold decodeExtended
  split
  · next h => subst h; exact ⟨rfl, rfl⟩
  split
  · next h => rcases h with rfl | rfl <;> exact ⟨rfl, rfl⟩
  split
  · next h => rcases h with rfl | rfl <;> exact ⟨rfl, rfl⟩
  · next h0 hw hr => exact ⟨not_actionByte h0 hw hr, rfl⟩

/-- Inversion of decode: a format's words are its high byte and any low byte, and the low byte (of a command
word, the whole word) says the instruction (R92). -/
theorem decode_cases {f : Format} {w : Word} {i : Instr} (h : decode f w = .ok i) :
    (f = .cmd16 ∧ i = decodeCommand w) ∨ ∃ c,
      (f = .frameLen ∧ w = wordOf 0 c ∧ i = decodeFrameLen c) ∨
      (f = .telegramEmbedded ∧ w = wordOf 8 c ∧ i = decodeEmbedded c) ∨
      (f = .telegramExtended ∧ w = wordOf 0 c ∧ i = decodeExtended c) := by
  obtain ⟨hi, c, rfl⟩ : ∃ hi c, w = wordOf hi c := ⟨_, _, (wordOf_hi_lo w).symm⟩
  cases f <;> simp only [decode, hiByte_wordOf, loByte_wordOf] at h
  case cmd16 => exact .inl ⟨rfl, (Except.ok.inj h).symm⟩
  all_goals
    split at h
    · next hhi =>
      subst hhi
      obtain rfl := Except.ok.inj h
      exact .inr ⟨c, by simp⟩
    · cases h

/-- What a word decodes to is well formed and has that word, in each format. -/
theorem isInstrOf_of_decode {f : Format} {w : Word} {i : Instr} (h : decode f w = .ok i) :
    IsInstrOf f w i := by
  rcases decode_cases h with ⟨rfl, rfl⟩ | ⟨c, ⟨rfl, rfl, rfl⟩ | ⟨rfl, rfl, rfl⟩ | ⟨rfl, rfl, rfl⟩⟩
  · exact decodeCommand_isInstrOf w
  · exact decodeFrameLen_isInstrOf c
  · exact decodeEmbedded_isInstrOf c
  · exact decodeExtended_isInstrOf c

/-- Settles O2, by the lemma of each format. -/
theorem encodeOfDecode : Obligations.EncodeOfDecode := fun _ _ _ => isInstrOf_of_decode

/-! ## The most specific row (R92)

Two rows of a format that match one word have different numbers of mask bits (`row_unique`), so it is enough that
no row that matches a word has more mask bits than the row of its instruction (`maskBits_le_of_hits`). A row leaves
every bit free, or the low byte, or at most the two lowest bits (`opcodeTable_cases`); the words of a row of the
last kind are so few that they are evaluated. -/

/-- The high byte, bit by bit. -/
theorem hiByte_and (v w : Word) : hiByte (v &&& w) = hiByte v &&& hiByte w := BitVec.extractLsb'_and ..

/-- The low byte, bit by bit. -/
theorem loByte_and (v w : Word) : loByte (v &&& w) = loByte v &&& loByte w := BitVec.extractLsb'_and ..

/-- What a mask that leaves the low byte free keeps of a word. -/
theorem wordOf_and_high (hi lo : Byte) : wordOf hi lo &&& 0xFF00 = wordOf hi 0 := by
  calc wordOf hi lo &&& 0xFF00
      = wordOf (hiByte (wordOf hi lo &&& 0xFF00)) (loByte (wordOf hi lo &&& 0xFF00)) := (wordOf_hi_lo _).symm
    _ = wordOf (hi &&& BitVec.allOnes 8) (lo &&& 0) := by
      rw [hiByte_and, loByte_and, hiByte_wordOf, loByte_wordOf]
      rfl
    _ = wordOf hi 0 := by rw [BitVec.and_allOnes, show lo &&& 0 = 0 from BitVec.and_zero]

/-- The high byte of a word that matches a row with the low byte free. -/
theorem hiByte_of_and_high {w p : Word} (h : w &&& 0xFF00 = p) : hiByte w = hiByte p := by
  rw [← h, ← wordOf_hi_lo w, wordOf_and_high, hiByte_wordOf, hiByte_wordOf]

/-- The mask of an instruction's row. -/
def Instr.rowMask : Instr → Word
  | .illegal _ _ | .frameTelegram _ | .telegramUnknownExt _ => 0x0000
  | .decodeAsUnknown _ | .decodeGuess _ | .encodeUnknown _ | .telegramUnknownEmb _ => 0xFF00
  | .frameMalformed _ => 0x00FC
  | .frameShort _ | .telegramWriteExt _ | .telegramResponseExt _ => 0x00FE
  | .frameConfirm | .frameAck | .telegramReadExt => 0x00FF
  | .telegramWriteEmb _ | .telegramResponseEmb _ => 0xFFFE
  | _ => 0xFFFF

/-- The table has a row for every instruction, which matches the instruction's word. -/
theorem exists_row (i : Instr) : ∃ r ∈ opcodeTable, r.format = (encode i).1 ∧ r.mask = i.rowMask ∧
    (encode i).2 &&& r.mask = r.pattern ∧ r.mnemonic = i.mnemonic := by
  cases i with
  | decodeAsUnknown k =>
    exact ⟨⟨"DECODE_AS.unknown", .cmd16, 0x0200, 0xFF00⟩, by decide +kernel, rfl, rfl,
      wordOf_and_high _ k, rfl⟩
  | decodeGuess n =>
    exact ⟨⟨"DECODE_GUESS", .cmd16, 0x0300, 0xFF00⟩, by decide +kernel, rfl, rfl,
      wordOf_and_high _ n, rfl⟩
  | encodeUnknown k =>
    exact ⟨⟨"ENCODE.unknown", .cmd16, 0x0400, 0xFF00⟩, by decide +kernel, rfl, rfl,
      wordOf_and_high _ k, rfl⟩
  | telegramUnknownEmb c =>
    exact ⟨⟨"TELEGRAM.UNKNOWN_EMB", .telegramEmbedded, 0x0800, 0xFF00⟩, by decide +kernel, rfl, rfl,
      wordOf_and_high _ c, rfl⟩
  | illegal op arg => exact ⟨⟨"ILLEGAL", .cmd16, 0, 0⟩, by decide +kernel, rfl, rfl, BitVec.and_zero, rfl⟩
  | frameTelegram n =>
    exact ⟨⟨"FRAME.TELEGRAM", .frameLen, 0, 0⟩, by decide +kernel, rfl, rfl, BitVec.and_zero, rfl⟩
  | telegramUnknownExt c =>
    exact ⟨⟨"TELEGRAM.UNKNOWN_EXT", .telegramExtended, 0, 0⟩, by decide +kernel, rfl, rfl, BitVec.and_zero, rfl⟩
  | frameShort b | telegramWriteEmb b | telegramResponseEmb b | telegramWriteExt b | telegramResponseExt b =>
    revert b
    decide +kernel
  | frameMalformed j =>
    revert j
    decide +kernel
  | _ => decide +kernel

/-- Rows of one format with as many mask bits have the same mask. -/
theorem mask_eq_of_maskBits_eq : ∀ r ∈ opcodeTable, ∀ r' ∈ opcodeTable, r.format = r'.format →
    maskBits r.mask = maskBits r'.mask → r.mask = r'.mask := by
  decide +kernel

/-- No two rows have the same format, mask and pattern. -/
theorem opcodeTable_nodup : (opcodeTable.map fun r => (r.format, r.mask, r.pattern)).Nodup := by
  decide +kernel

/-- So two rows of one format with as many mask bits match no word in common. -/
theorem row_unique {r r' : Row} (hr : r ∈ opcodeTable) (hr' : r' ∈ opcodeTable) (hf : r.format = r'.format)
    {w : Word} (hit : w &&& r.mask = r.pattern) (hit' : w &&& r'.mask = r'.pattern)
    (hbits : maskBits r.mask = maskBits r'.mask) : r = r' := by
  have hmask : r.mask = r'.mask := mask_eq_of_maskBits_eq r hr r' hr' hf hbits
  have hpattern : r.pattern = r'.pattern := by rw [← hit, ← hit', hmask]
  exact List.inj_on_of_nodup_map opcodeTable_nodup hr hr' (by rw [hf, hmask, hpattern])

/-- The bits that are 0 in every word of a format. -/
def Format.unusedBits : Format → Word
  | .cmd16 | .telegramEmbedded => 0x0000
  | .frameLen | .telegramExtended => 0xFF00

/-- A word that decodes has none of its format's unused bits. -/
theorem and_unusedBits_of_decode {f : Format} {w : Word} {i : Instr} (h : decode f w = .ok i) :
    w &&& f.unusedBits = 0 := by
  rcases decode_cases h with ⟨rfl, -⟩ | ⟨c, ⟨rfl, rfl, -⟩ | ⟨rfl, -⟩ | ⟨rfl, rfl, -⟩⟩
  · exact BitVec.and_zero
  · exact wordOf_and_high 0 c
  · exact BitVec.and_zero
  · exact wordOf_and_high 0 c

/-- A row that leaves no bit free but the two lowest. -/
abbrev Row.Narrow (r : Row) : Prop := r.mask ||| r.format.unusedBits ||| 0x0003 = 0xFFFF

/-- A row leaves every bit free, or the low byte, or at most the two lowest bits. -/
theorem opcodeTable_cases : ∀ r ∈ opcodeTable, r.mask = 0x0000 ∨
    (r.mask = 0xFF00 ∧ r.format = .cmd16 ∧ hiByte r.pattern ∈ [2, 3, 4]) ∨
    (r.mask = 0xFF00 ∧ r.format = .telegramEmbedded) ∨ r.Narrow := by
  decide +kernel

/-- Every word of a narrow row decodes to an instruction of a row with at least as many mask bits. -/
theorem opcodeTable_narrow : ∀ r ∈ opcodeTable, r.Narrow → ∀ x : BitVec 2,
    (r.pattern ||| x.setWidth 16) &&& r.mask = r.pattern →
    ∀ i ∈ (decode r.format (r.pattern ||| x.setWidth 16)).toOption,
      maskBits r.mask ≤ maskBits i.rowMask := by
  decide +kernel

/-- A word of a narrow row is the row's pattern and the word's own two lowest bits. -/
theorem eq_pattern_or_of_narrow {r : Row} {w : Word} (h : r.Narrow) (hu : w &&& r.format.unusedBits = 0)
    (hit : w &&& r.mask = r.pattern) : w = r.pattern ||| (w.setWidth 2).setWidth 16 := by
  have hlow : w &&& 0x0003 = (w.setWidth 2).setWidth 16 := by
    apply BitVec.eq_of_toNat_eq
    have hmod := Nat.and_two_pow_sub_one_eq_mod w.toNat 2
    simp only [BitVec.toNat_and, BitVec.toNat_setWidth]
    exact hmod.trans (by omega)
  calc w = w &&& (r.mask ||| r.format.unusedBits ||| 0x0003) := by
        rw [h]
        exact BitVec.and_allOnes.symm
    _ = w &&& r.mask ||| w &&& r.format.unusedBits ||| w &&& 0x0003 := by
        rw [BitVec.and_or_distrib_left, BitVec.and_or_distrib_left]
    _ = r.pattern ||| (w.setWidth 2).setWidth 16 := by
        rw [hit, hu, hlow]
        exact congrArg (· ||| _) BitVec.or_zero

/-- A recognised code's DECODE_AS row fixes every bit. -/
theorem rowMask_decodeAsRow (d : Dpt) : (decodeAsRow d).rowMask = 0xFFFF := by
  cases d <;> rfl

/-- A recognised code's ENCODE row fixes every bit. -/
theorem rowMask_encodeRow (d : Dpt) : (encodeRow d).rowMask = 0xFFFF := by
  cases d <;> rfl

/-- A command word with `OP` of DECODE_AS, DECODE_GUESS or ENCODE has a row that fixes `OP` (R71). -/
theorem eight_le_maskBits_decodeCommand {w : Word} (h : hiByte w ∈ [2, 3, 4]) :
    8 ≤ maskBits (decodeCommand w).rowMask := by
  obtain ⟨op, arg, rfl⟩ : ∃ op arg, w = wordOf op arg := ⟨_, _, (wordOf_hi_lo w).symm⟩
  rw [hiByte_wordOf] at h
  rw [decodeCommand_wordOf]
  obtain rfl | rfl | rfl : op = 2 ∨ op = 3 ∨ op = 4 := by simpa using h
  · rw [if_neg (by simp), if_pos rfl]
    split
    · rw [rowMask_decodeAsRow]; decide
    · exact (by decide : 8 ≤ maskBits 0xFF00)
  · exact (by decide : 8 ≤ maskBits 0xFF00)
  · rw [if_neg (by simp), if_neg (by decide), if_neg (by decide), if_pos rfl]
    split
    · rw [rowMask_encodeRow]; decide
    · exact (by decide : 8 ≤ maskBits 0xFF00)

/-- A telegram key has a row that fixes its high byte (R78). -/
theorem eight_le_maskBits_decodeEmbedded (c : Byte) : 8 ≤ maskBits (decodeEmbedded c).rowMask := by
  unfold decodeEmbedded
  split
  · exact (by decide : 8 ≤ maskBits 0xFFFF)
  split
  · exact (by decide : 8 ≤ maskBits 0xFFFE)
  split
  · exact (by decide : 8 ≤ maskBits 0xFFFE)
  · exact (by decide : 8 ≤ maskBits 0xFF00)

/-- No row that matches a word has more mask bits than the row of the word's instruction (R92). -/
theorem maskBits_le_of_hits {r : Row} (hr : r ∈ opcodeTable) {w : Word} {i : Instr}
    (hd : decode r.format w = .ok i) (hit : w &&& r.mask = r.pattern) :
    maskBits r.mask ≤ maskBits i.rowMask := by
  rcases opcodeTable_cases r hr with hmask | ⟨hmask, hf, hop⟩ | ⟨hmask, hf⟩ | hnarrow
  · rw [hmask]
    exact Nat.zero_le _
  · rw [hmask] at hit ⊢
    rw [hf] at hd
    obtain rfl := Except.ok.inj hd
    exact eight_le_maskBits_decodeCommand (hiByte_of_and_high hit ▸ hop)
  · rw [hmask]
    rw [hf] at hd
    obtain ⟨c, -, rfl⟩ : ∃ c, w = wordOf 8 c ∧ i = decodeEmbedded c := by simpa using decode_cases hd
    exact eight_le_maskBits_decodeEmbedded c
  · have hw := eq_pattern_or_of_narrow hnarrow (and_unusedBits_of_decode hd) hit
    rw [hw] at hd hit
    exact opcodeTable_narrow r hr hnarrow _ hit i (by rw [hd]; rfl)

/-- Settles O3: the row of the decoded instruction (`exists_row`) has the most mask bits of the rows that match
(`maskBits_le_of_hits`), and no other has as many (`row_unique`). -/
theorem mostSpecificRowWins : Obligations.MostSpecificRowWins := by
  refine ⟨fun f w i hd => ?_, fun w => ⟨_, rfl⟩⟩
  obtain ⟨-, henc⟩ := isInstrOf_of_decode hd
  obtain ⟨r, hr, hf, hmask, hit, hmnemonic⟩ := exists_row i
  rw [henc] at hf hit
  refine ⟨r, hr, hf, hmnemonic, hit, fun r' hr' hf' hit' hne => ?_⟩
  have hle := maskBits_le_of_hits hr' (hf' ▸ hd) hit'
  rw [← hmask] at hle
  exact lt_of_le_of_ne hle fun hbits => hne (row_unique hr' hr (hf'.trans hf.symm) hit' hit hbits)

end Sys2Proof

/-! # Illegal commands, wrong operand shapes and unknown codes (`30_encoding.md`)

A command with an operand record of another shape is an illegal command (R73): one lemma for each command, and the
rows are the commands of their codes. -/

namespace Sys2Proof.Machine

open Sys2Proof.Claims

/-! ## Illegal words (R72) -/

/-- A word decodes as illegal exactly when it is no legal command. -/
theorem decodeCommand_eq_illegal_iff (op arg : Byte) :
    decodeCommand (wordOf op arg) = .illegal op arg ↔ legalCommand op arg = false := by
  constructor
  · intro h
    have hwf := (decodeCommand_isInstrOf (wordOf op arg)).1
    rw [h] at hwf
    simpa [Instr.WellFormed, Instr.wellFormed] using hwf
  · intro h
    exact Except.ok.inj (Laws.RoundTrip.illegal op arg (by simp [Instr.WellFormed, Instr.wellFormed, h]))

/-- Settles O4: R72's list is `legalCommand`, and a step with a word outside it only latches and answers. -/
theorem illegalCommandWords : Obligations.IllegalCommandWords := by
  have hwords (op arg : Byte) := (decodeCommand_eq_illegal_iff op arg).trans (legalCommand_eq_false_iff op arg)
  refine ⟨hwords, fun s r rest op arg hport hcmd hill => ?_⟩
  rw [step_of_request hport, hcmd, (hwords op arg).2 hill]
  rfl

/-! ## Operand records of another shape (R73) -/

/-- FEED takes a chunk. -/
theorem feedCommand_of_wrongRecord {s : State} (h : rightRecordShape 0x01 s.operand = false) :
    feedCommand s = illegalCommand s := by
  unfold feedCommand
  split
  · next hop => simp [hop, rightRecordShape] at h
  all_goals rfl

/-- DECODE_AS takes bytes with a reference date. -/
theorem decodeAsCommand_of_wrongRecord (k : Byte) {s : State} (h : rightRecordShape 0x02 s.operand = false) :
    decodeAsCommand k s = illegalCommand s := by
  unfold decodeAsCommand
  split
  · next hop => simp [hop, rightRecordShape] at h
  all_goals rfl

/-- DECODE_GUESS takes bytes. -/
theorem decodeGuessCommand_of_wrongRecord (n : Byte) {s : State}
    (h : rightRecordShape 0x03 s.operand = false) : decodeGuessCommand n s = illegalCommand s := by
  unfold decodeGuessCommand
  split
  · next hop => simp [hop, rightRecordShape] at h
  all_goals rfl

/-- ENCODE takes a value. -/
theorem encodeCommand_of_wrongRecord (k : Byte) {s : State} (h : rightRecordShape 0x04 s.operand = false) :
    encodeCommand k s = illegalCommand s := by
  unfold encodeCommand
  split
  · next hop => simp [hop, rightRecordShape] at h
  all_goals rfl

/-- STATUS takes nothing. -/
theorem statusCommand_of_wrongRecord {s : State} (h : rightRecordShape 0x05 s.operand = false) :
    statusCommand s = illegalCommand s := by
  unfold statusCommand
  split
  · next hop => simp [hop, rightRecordShape] at h
  all_goals rfl

/-- RESET takes nothing. -/
theorem resetCommand_of_wrongRecord {s : State} (h : rightRecordShape 0x06 s.operand = false) :
    resetCommand s = illegalCommand s := by
  unfold resetCommand
  split
  · next hop => simp [hop, rightRecordShape] at h
  all_goals rfl

/-- Settles O56: each command row is its `OP`'s command, and an illegal word answers so with every record. -/
theorem wrongRecordShapeIsIllegal : Obligations.WrongRecordShapeIsIllegal := by
  intro i s hfmt h
  show exec i s = .next (illegalCommand s)
  cases i with
  | feed => exact congrArg _ (feedCommand_of_wrongRecord h)
  | decodeAsDpt1 | decodeAsDpt2 | decodeAsDpt3 | decodeAsDpt4 | decodeAsDpt5 | decodeAsDpt6 | decodeAsDpt7
  | decodeAsDpt8 | decodeAsDpt9 | decodeAsDpt10 | decodeAsDpt11 | decodeAsDpt12 | decodeAsDpt13
  | decodeAsDpt14 | decodeAsDpt16 | decodeAsDpt232 =>
    exact congrArg _ (decodeAsCommand_of_wrongRecord _ h)
  | decodeAsUnknown k => exact congrArg _ (decodeAsCommand_of_wrongRecord k (hiByte_wordOf 0x02 k ▸ h))
  | decodeGuess n => exact congrArg _ (decodeGuessCommand_of_wrongRecord n (hiByte_wordOf 0x03 n ▸ h))
  | encodeDpt1 | encodeDpt2 | encodeDpt3 | encodeDpt4 | encodeDpt5 | encodeDpt6 | encodeDpt7 | encodeDpt8
  | encodeDpt9 | encodeDpt10 | encodeDpt11 | encodeDpt12 | encodeDpt13 | encodeDpt14 | encodeDpt16
  | encodeDpt232 =>
    exact congrArg _ (encodeCommand_of_wrongRecord _ h)
  | encodeUnknown k => exact congrArg _ (encodeCommand_of_wrongRecord k (hiByte_wordOf 0x04 k ▸ h))
  | status => exact congrArg _ (statusCommand_of_wrongRecord h)
  | reset => exact congrArg _ (resetCommand_of_wrongRecord h)
  | illegal => rfl
  | frameShort | frameConfirm | frameAck | frameMalformed | frameTelegram | telegramReadPure
  | telegramWriteEmb | telegramResponseEmb | telegramUnknownEmb | telegramReadExt | telegramWriteExt
  | telegramResponseExt | telegramUnknownExt => simp [encode] at hfmt

/-! ## Unknown codes (R81, R140) -/

/-- Settles O43: the check of the code comes before that of the length (`decodeAs_unknown`). -/
theorem decodeUnknownCode : Obligations.DecodeUnknownCode := by
  intro k s P ref hwf hop
  have hk : recognisedCodes.contains k = false := by simpa [Instr.WellFormed, Instr.wellFormed] using hwf
  calc exec (.decodeAsUnknown k) s = .next (decodeAsCommand k s) := rfl
    _ = .next (s.reply (.decoded ⟨.unknownDatapointType, k, none⟩)) := by
      rw [decodeAsCommand_of hop, decodeAs_unknown hk]

/-! ## Values of another shape (R190) -/

/-- An encoder refuses a value that does not have its type's shape. -/
theorem encoderOf_wrongValue {d : Dpt} {enc : Native → Encoded} {v : Native} (henc : encoderOf d = some enc)
    (hv : rightValueShape (encodeRow d) v = false) : enc v = ⟨.illegalCommand, []⟩ := by
  cases d with
  | dpt4 | dpt6 | dpt8 | dpt12 | dpt13 | dpt16 | dpt232 => cases henc
  | dpt1 | dpt2 | dpt3 | dpt5 | dpt7 | dpt10 | dpt11 | dpt14 =>
    cases henc
    dsimp only
    split
    · cases hv
    · rfl
  | dpt9 =>
    cases henc
    dsimp only
    split
    · cases hv
    · cases hv
    · rfl

/-- The encodable rows are rows of types that have an encoder (R3). -/
theorem encodableRows_encoder :
    ∀ i ∈ encodableRows, ∃ d ∈ Dpt.all, i = encodeRow d ∧ (encoderOf d).isSome := by
  decide

/-- Settles O53: an encodable row is the ENCODE command of a type with an encoder, which refuses the value. -/
theorem encodeWrongValueShape : Obligations.EncodeWrongValueShape := by
  intro i hi v hv s hop
  obtain ⟨d, -, rfl, hsome⟩ := encodableRows_encoder i hi
  obtain ⟨enc, henc⟩ := Option.isSome_iff_exists.1 hsome
  have hrefused : encodeAs d.code v = ⟨.illegalCommand, []⟩ := by
    rw [encodeAs_code, henc]
    exact encoderOf_wrongValue henc hv
  rw [exec_encodeRow, encodeCommand_of hop, hrefused]
  rfl

end Sys2Proof.Machine

/-! # The frame splitter (`40_frame_splitter.md`)

The words of `Claims` are tied to the model's: a telegram's fields and events (R107 to R114), and the splitting
of a stream (`Splits`), along which the drain runs (`feedDrain_of_splits`). Chunk-partition invariance is then a
fact about splittings: they compose where the stream is cut (`Splits.append`). -/

namespace Sys2Proof.Machine

open Sys2Proof.Claims

/-! ## The drain loop (R100) -/

/-- Settles O8: the stop is `feedDrain_of_none`, and a pass over a complete frame is `feedDrain_of_some`. -/
theorem drainLoopEquation : Obligations.DrainLoopEquation := by
  refine ⟨fun s h => feedDrain_of_none (completeFrame_eq_none.2 h), fun s n hl hT => ?_⟩
  have hc : completeFrame s.pending = some n := completeFrame_eq_some.2 ⟨hl, hT⟩
  exact ⟨framePass_pending hc, feedDrain_of_some hc⟩

/-! ## The fields of a telegram, in the words of the rules (R107 to R114) -/

/-- An address field is the big-endian number at its offset (R9, R107). -/
theorem u16be_eq_addressAt (F : Bytes) (i : Nat) : u16be F i = addressAt F i := by
  apply BitVec.eq_of_toNat_eq
  have hhi := (byteAt F i).isLt
  have hlo := (byteAt F (i + 1)).isLt
  rw [toNat_u16be]
  simp only [addressAt, big16, byteNum, byteAt, BitVec.toNat_ofNat] at *
  omega

/-- The action of a control byte is the one of the table (R78, R108). -/
theorem actionOf_eq_actionByTable (c : Byte) : actionOf c = actionByTable c := by
  simp [actionOf, actionByTable, ← BitVec.toNat_inj]

/-- The payload of a whole frame, by its length field: the last byte, or everything from offset 10 (R110). -/
theorem payloadOf_isFrame {F : Bytes} (h : IsFrame F) : payloadOf (F.getD 1 0) F = payloadBySpec F := by
  simp only [payloadOf, payloadBySpec, frameTotal_isFrame h, List.take_length]
  congr 2
  simp only [byteAt, List.getD_eq_getElem?_getD, List.getLastD_eq_getLast?, List.getLast?_eq_getElem?]

/-- The decode path of a whole telegram emits the three events of the rules (R114). -/
theorem decodePathEvents_isFrame {F : Bytes} (h : IsFrame F) (L : Lookup) (ref : Ref) (act : Action) :
    decodePathEvents L ref (F.getD 1 0) act F = threeEvents L ref act F := by
  simp only [decodePathEvents, payloadOf_isFrame h, sourceOf, destinationOf, u16be_eq_addressAt]
  rfl

/-- The events of a whole telegram: a pure read exactly for control byte 0 with length field 8 (R111). -/
theorem telegramEvents_isFrame {F : Bytes} (h : IsFrame F) (L : Lookup) (ref : Ref) :
    telegramEvents L ref (F.getD 1 0) F = eventsBySpec L ref F := by
  have hpure : (F.getD 1 0 = 8 ∧ controlOf F = 0) ↔ (byteNum F 9 = 0 ∧ byteNum F 1 = 8) := by
    rw [and_comm, ← BitVec.toNat_inj, ← BitVec.toNat_inj]
    rfl
  simp only [telegramEvents, eventsBySpec, hpure, pureReadEvents, sourceOf, destinationOf, u16be_eq_addressAt,
    decodePathEvents_isFrame h, actionOf_eq_actionByTable]
  rfl

/-- Settles O24: the row consumes the telegram and emits its events, which are those of the rules. -/
theorem telegramFrameParsed : Obligations.TelegramFrameParsed := by
  intro F rest s hF hten hp
  have hs : { s with pending := F ++ rest } = s := by rw [← hp]
  have hexec := exec_frameTelegram_isFrame rest s hF hten
  rw [hs, telegramEvents_isFrame hF] at hexec
  exact hexec

/-! ## The guess over the parser's payload (R110, R118) -/

/-- The number of payload bytes of a whole telegram (R110). -/
theorem length_payloadOf_isFrame {F : Bytes} (h : IsFrame F) (hten : 10 ≤ F.length) :
    (payloadOf (F.getD 1 0) F).length = if byteNum F 1 = 8 then 1 else byteNum F 1 - 8 := by
  have hn : 8 ≤ byteNum F 1 := eight_le_lengthField h hten
  have hT : F.length = byteNum F 1 + 2 := h.2
  rw [payloadOf_isFrame h, payloadBySpec]
  by_cases h8 : byteNum F 1 = 8
  · rw [if_pos h8.le, if_pos h8]
    rfl
  · rw [if_neg (by omega), if_neg h8, List.length_drop]
    omega

/-- A guess errs only on the length (R180). -/
theorem guess_err (d : Dpt) (P : Bytes) (size : Nat) (f : Bytes → Value) :
    (guess d P size f).err = if P.length = size then .noError else .lengthMismatch := by
  unfold guess
  split <;> rfl

/-- The fallback errs only on fewer than four bytes (R184). -/
theorem fallback14_err (P : Bytes) :
    (fallback14 P).err = if P.length < 4 then .lengthMismatch else .noError := by
  unfold fallback14
  split <;> rfl

/-- Over as many bytes as the parser passes on for `n`, the guess errs only for `n = 11`: the three bytes are
too few for the fallback (R118). -/
theorem decodeGuessed_err {n : Byte} {P : Bytes} (hn : 8 ≤ n.toNat)
    (hP : P.length = if n.toNat = 8 then 1 else n.toNat - 8) :
    (decodeGuessed n P).err = if n.toNat = 11 then .lengthMismatch else .noError := by
  unfold decodeGuessed
  split
  · next h => subst h; exact (guess_err _ _ _ _).trans (if_pos hP)
  split
  · next h => subst h; exact (guess_err _ _ _ _).trans (if_pos hP)
  split
  · next h => subst h; exact (guess_err _ _ _ _).trans (if_pos hP)
  next h8 h9 h10 =>
    have hfour : P.length < 4 ↔ n.toNat = 11 := by
      simp only [← BitVec.toNat_inj, BitVec.reduceToNat] at h8 h9 h10
      rw [hP, if_neg h8]
      omega
    simp only [fallback14_err, hfour]

/-- Settles O29: the payload's length (`length_payloadOf_isFrame`) decides the guess (`decodeGuessed_err`). -/
theorem parserPayloadLengths : Obligations.ParserPayloadLengths := fun _ hF hten =>
  ⟨length_payloadOf_isFrame hF hten,
    decodeGuessed_err (eight_le_lengthField hF hten) (length_payloadOf_isFrame hF hten)⟩

end Sys2Proof.Machine

namespace Sys2Proof.Claims

open Sys2Proof.Machine

variable {L : Lookup} {ref : Ref}

/-! ## Splittings of a stream (R101 to R106) -/

/-- A complete frame at the front is a whole frame and the bytes after it (R101). -/
theorem exists_isFrame_append {bs : Bytes} {n : Byte} (h : completeFrame bs = some n) :
    ∃ F rest, bs = F ++ rest ∧ IsFrame F := by
  obtain ⟨hl, hT⟩ := completeFrame_eq_some.1 h
  obtain ⟨a, tail, rfl⟩ := lengthField_eq_some.1 hl
  refine ⟨_, _, (List.take_append_drop (frameTotal n) _).symm, ?_⟩
  have hlen : ((a :: n :: tail).take (frameTotal n)).length = n.toNat + 2 := List.length_take_of_le hT
  exact ⟨by omega, hlen⟩

/-- Every stream has a splitting, since a frame at its front leaves a shorter stream (R104). -/
theorem exists_splits (L : Lookup) (ref : Ref) (bs : Bytes) :
    ∃ events left bad, Splits L ref bs events left bad := by
  generalize hk : bs.length = k
  induction k using Nat.strong_induction_on generalizing bs with
  | _ k ih =>
    cases hc : completeFrame bs with
    | none => exact ⟨_, _, _, .stop (completeFrame_eq_none.1 hc)⟩
    | some n =>
      obtain ⟨F, rest, rfl, hF⟩ := exists_isFrame_append hc
      have hlen : rest.length < k := by
        have htwo := hF.1
        rw [List.length_append] at hk
        omega
      obtain ⟨events, left, bad, hrest⟩ := ih _ hlen rest rfl
      by_cases h5 : F.length ≤ 5
      · exact ⟨_, _, _, .silent hF h5 hrest⟩
      by_cases h9 : F.length ≤ 9
      · exact ⟨_, _, _, .malformed hF (by omega) h9⟩
      · exact ⟨_, _, _, .telegram hF (by omega) hrest⟩

/-- What a splitting leaves is no longer than the stream. -/
theorem Splits.length_le {bs left : Bytes} {events : List Event} {bad : Option Bytes}
    (h : Splits L ref bs events left bad) : left.length ≤ bs.length := by
  induction h with
  | stop _ => exact le_rfl
  | silent _ _ _ ih | telegram _ _ _ ih =>
    rw [List.length_append]
    omega
  | malformed _ _ _ => simp

/-- A splitting without a malformed frame leaves no complete frame (R22). -/
theorem Splits.noCompleteFrame {bs left : Bytes} {events : List Event}
    (h : Splits L ref bs events left none) : NoCompleteFrame left := by
  generalize hbad : none = bad at h
  induction h with
  | stop hn => exact hn
  | silent _ _ _ ih | telegram _ _ _ ih => exact ih hbad
  | malformed _ _ _ => cases hbad

/-- Splittings compose where a stream is cut: what the first leaves is split with the bytes that follow. -/
theorem Splits.append {bs left more left' : Bytes} {events events' : List Event} {bad' : Option Bytes}
    (h : Splits L ref bs events left none) (h' : Splits L ref (left ++ more) events' left' bad') :
    Splits L ref (bs ++ more) (events ++ events') left' bad' := by
  generalize hbad : none = bad at h
  induction h with
  | stop _ => exact h'
  | silent hF hT _ ih =>
    rw [List.append_assoc]
    exact .silent hF hT (ih h' hbad)
  | malformed _ _ _ => cases hbad
  | telegram hF hT _ ih =>
    rw [List.append_assoc, List.append_assoc]
    exact .telegram hF hT (ih h' hbad)

/-- After a malformed frame nothing more is split: the bytes that follow are left (R106). -/
theorem Splits.append_of_malformed {bs left F : Bytes} {events : List Event} (more : Bytes)
    (h : Splits L ref bs events left (some F)) : Splits L ref (bs ++ more) events (left ++ more) (some F) := by
  generalize hbad : some F = bad at h ⊢
  induction h with
  | stop _ => cases hbad
  | silent hF hT _ ih =>
    rw [List.append_assoc]
    exact .silent hF hT (ih hbad)
  | malformed hF h6 h9 =>
    rw [List.append_assoc]
    exact .malformed hF h6 h9
  | telegram hF hT _ ih =>
    rw [List.append_assoc]
    exact .telegram hF hT (ih hbad)

end Sys2Proof.Claims

namespace Sys2Proof.Machine

open Sys2Proof.Claims

/-! ## FEED along a splitting (R100 to R106) -/

/-- One pass over a whole frame at the front, by the frame's length (R103, R105, R106). -/
theorem framePass_isFrame {F rest : Bytes} {s : State} (h : IsFrame F) (hp : s.pending = F ++ rest) :
    framePass (F.getD 1 0) s =
      if F.length ≤ 5 then s.setPending rest
      else if F.length ≤ 9 then raiseMalformedFrame F.length F (s.setPending rest)
      else (s.setPending rest).emit (eventsBySpec s.lookup s.ref F) := by
  have hT : F.length = (F.getD 1 0).toNat + 2 := h.2
  have h5 : F.length ≤ 5 ↔ (F.getD 1 0).toNat ≤ 3 := by omega
  have h9 : F.length ≤ 9 ↔ (F.getD 1 0).toNat ≤ 7 := by omega
  rw [framePass_complete (hp ▸ completeFrame_isFrame rest h), frameTotal_isFrame h, hp, List.take_left,
    List.drop_left, telegramEvents_isFrame h]
  simp only [h5, h9]

/-- Emitting no event changes nothing. -/
theorem emit_nil (s : State) : s.emit [] = s := by
  simp only [State.emit, List.append_nil]

/-- The state that a drain with that splitting leaves (R100, R106). -/
def afterDrain (s : State) (events : List Event) (left : Bytes) : Option Bytes → State
  | none => (s.setPending left).emit events
  | some F => raiseMalformedFrame F.length F ((s.setPending left).emit events)

/-- The drain of a stream after one of its frames is the drain of the stream: an earlier event comes first. -/
theorem afterDrain_emit (s : State) (rest : Bytes) (first events : List Event) (left : Bytes)
    (bad : Option Bytes) : afterDrain ((s.setPending rest).emit first) events left bad =
      afterDrain s (first ++ events) left bad := by
  cases bad <;> simp [afterDrain, State.emit, State.setPending, raiseMalformedFrame, State.setFaultRecord]

/-- The same after a frame that emits nothing. -/
theorem afterDrain_setPending (s : State) (rest : Bytes) (events : List Event) (left : Bytes)
    (bad : Option Bytes) : afterDrain (s.setPending rest) events left bad = afterDrain s events left bad := by
  cases bad <;> rfl

/-- The drain of a whole frame and the bytes after it (R100). -/
theorem feedDrain_isFrame {F rest : Bytes} {s : State} (h : IsFrame F) (hp : s.pending = F ++ rest) :
    feedDrain s = if (framePass (F.getD 1 0) s).fault = true then framePass (F.getD 1 0) s
      else feedDrain (framePass (F.getD 1 0) s) :=
  feedDrain_of_some (hp ▸ completeFrame_isFrame rest h)

/-- The drain follows every splitting of the accumulator. -/
theorem feedDrain_of_splits {L : Lookup} {ref : Ref} {bs left : Bytes} {events : List Event}
    {bad : Option Bytes} (h : Splits L ref bs events left bad) (s : State) (hp : s.pending = bs)
    (hf : s.fault = false) (hL : s.lookup = L) (href : s.ref = ref) :
    feedDrain s = afterDrain s events left bad := by
  induction h generalizing s with
  | stop h =>
    subst hp
    rw [feedDrain_of_none (completeFrame_eq_none.2 h), afterDrain, emit_nil]
    rfl
  | silent hF hT _ ih =>
    have hpass := (framePass_isFrame hF hp).trans (if_pos hT)
    rw [feedDrain_isFrame hF hp, hpass, setPending_fault, hf, if_neg Bool.false_ne_true,
      ih (s.setPending _) rfl hf hL href, afterDrain_setPending]
  | malformed hF h6 h9 =>
    have hpass := ((framePass_isFrame hF hp).trans (if_neg (by omega))).trans (if_pos h9)
    rw [feedDrain_isFrame hF hp, hpass, raiseMalformedFrame_fault, if_pos rfl, afterDrain, emit_nil]
  | telegram hF hT _ ih =>
    have hpass := ((framePass_isFrame hF hp).trans (if_neg (by omega))).trans (if_neg (by omega))
    rw [feedDrain_isFrame hF hp, hpass, emit_fault, setPending_fault, hf, if_neg Bool.false_ne_true,
      ih ((s.setPending _).emit _) rfl hf hL href, afterDrain_emit, hL, href]

/-- A FEED that is not refused follows every splitting of the accumulator with its chunk (R100). -/
theorem feedChunk_of_splits {s : State} {chunk left : Bytes} {ref : Ref} {events : List Event}
    {bad : Option Bytes} (hf : s.fault = false)
    (hfit : fitsPending s.pendingCap (s.pending.length + chunk.length) = true)
    (h : Splits s.lookup ref (s.pending ++ chunk) events left bad) :
    feedChunk chunk ref s = afterFeed s ref events left bad := by
  rw [feedChunk_of_fits ref hf hfit, feedDrain_of_splits h (beginFeed chunk ref s) rfl hf rfl rfl]
  cases bad with
  | none => simp [afterDrain, endFeed, beginFeed, afterFeed, State.emit, State.setPending, hf]
  | some F => rfl

/-- Settles O16: a splitting exists (`exists_splits`), and FEED follows every one (`feedChunk_of_splits`). -/
theorem feedRefinesSplitting : Obligations.FeedRefinesSplitting := fun s chunk ref hop hf hfit =>
  ⟨exists_splits s.lookup ref (s.pending ++ chunk), fun _ _ _ h =>
    (execFeed_of hop).trans (congrArg Host.Outcome.next (feedChunk_of_splits hf hfit h))⟩

/-! ## Feeding a stream in chunks (R117) -/

/-- The state in which a FEED of `feedStep` runs: its request is taken from the port (R37). -/
def feedReady (L : Lookup) (ref : Ref) (chunk : Bytes) (s : State) : State :=
  { s with port := [], operand := .chunk chunk ref, lookup := L }

/-- A FEED as a step runs its chunk. -/
theorem feedStep_eq (L : Lookup) (ref : Ref) (chunk : Bytes) (s : State) :
    feedStep L ref chunk s = .next (feedChunk chunk ref (feedReady L ref chunk s)) := by
  have hword : decodeCommand 0x0100 = .feed := by decide
  rw [feedStep, step_of_request rfl, hword]
  exact execFeed_of rfl

/-- A FEED as a step, not refused, follows every splitting of the accumulator with its chunk (R100). -/
theorem feedStep_of_splits {L : Lookup} {ref : Ref} {chunk left : Bytes} {events : List Event}
    {bad : Option Bytes} {s : State} (hf : s.fault = false)
    (hfit : fitsPending s.pendingCap (s.pending.length + chunk.length) = true)
    (h : Splits L ref (s.pending ++ chunk) events left bad) :
    feedStep L ref chunk s = .next (afterFeed (feedReady L ref chunk s) ref events left bad) :=
  (feedStep_eq L ref chunk s).trans
    (congrArg Host.Outcome.next (feedChunk_of_splits (s := feedReady L ref chunk s) hf hfit h))

/-- A FEED with a splitting answers its events (R100). -/
theorem afterFeed_result (s : State) (ref : Ref) (events : List Event) (left : Bytes) (bad : Option Bytes) :
    ∃ err, (afterFeed s ref events left bad).result = some (.feed err events) := by
  cases bad <;> exact ⟨_, rfl⟩

/-- While `FAULT = 1` a FEED is refused (R238). -/
theorem feedChunk_of_fault {s : State} (chunk : Bytes) (ref : Ref) (hf : s.fault = true) :
    feedChunk chunk ref s = s.reply (.feed .faultActive []) := if_pos hf

/-- The first chunk's events come before those of the chunks after it. -/
theorem feedAll_cons {L : Lookup} {ref : Ref} {chunk : Bytes} {rest : List Bytes} {s t u : State} {err : Err}
    {events events' : List Event} (hstep : feedStep L ref chunk s = .next t)
    (hresult : t.result = some (.feed err events)) (hrest : feedAll L ref rest t = some (events', u)) :
    feedAll L ref (chunk :: rest) s = some (events ++ events', u) := by
  simp [feedAll, hstep, hresult, hrest]

/-- A stream in one chunk is one FEED. -/
theorem feedAll_singleton {L : Lookup} {ref : Ref} {chunk : Bytes} {s t : State} {err : Err}
    {events : List Event} (hstep : feedStep L ref chunk s = .next t)
    (hresult : t.result = some (.feed err events)) : feedAll L ref [chunk] s = some (events, t) := by
  have hrest : feedAll L ref [] t = some ([], t) := rfl
  simpa using feedAll_cons hstep hresult hrest

/-- While `FAULT = 1` a stream emits nothing and leaves the block as it is, in whatever chunks (R238). -/
theorem feedAll_of_fault (L : Lookup) (ref : Ref) (chunks : List Bytes) (s : State) (hf : s.fault = true) :
    ∃ t, feedAll L ref chunks s = some ([], t) ∧ SameBlock s t := by
  induction chunks generalizing s with
  | nil => exact ⟨s, rfl, rfl, rfl, rfl, rfl, rfl⟩
  | cons chunk rest ih =>
    obtain ⟨t, hall, hsame⟩ := ih ((feedReady L ref chunk s).reply (.feed .faultActive [])) hf
    refine ⟨t, feedAll_cons ?_ (reply_result _ _) hall, hsame⟩
    rw [feedStep_eq, feedChunk_of_fault _ _ (by exact hf)]

/-- Two states with the same fault record, and the same accumulator while no fault is recorded (R117). -/
def SameOutcome (t u : State) : Prop :=
  t.fault = u.fault ∧ t.faultCause = u.faultCause ∧ t.faultLen = u.faultLen ∧ t.faultFrame = u.faultFrame ∧
    (t.fault = false → t.pending = u.pending)

/-- States with the same block have the same outcome. -/
theorem SameBlock.sameOutcome {s t : State} (h : SameBlock s t) : SameOutcome t s := by
  obtain ⟨hpending, hfault, hcause, hlen, hframe⟩ := h
  exact ⟨hfault, hcause, hlen, hframe, fun _ => hpending⟩

/-- From a drained state with room for the stream, the chunks one after another give the events of a splitting
of the whole stream, and end as a FEED of it with that splitting. -/
theorem feedAll_splits (L : Lookup) (ref : Ref) (chunks : List Bytes) (s : State) (hf : s.fault = false)
    (hn : NoCompleteFrame s.pending)
    (hfit : fitsPending s.pendingCap (s.pending.length + chunks.flatten.length) = true) :
    ∃ events left bad t, Splits L ref (s.pending ++ chunks.flatten) events left bad ∧
      feedAll L ref chunks s = some (events, t) ∧ SameOutcome t (afterFeed s ref events left bad) := by
  induction chunks generalizing s with
  | nil =>
    refine ⟨[], s.pending, none, s, ?_, rfl, rfl, rfl, rfl, rfl, fun _ => rfl⟩
    rw [List.flatten_nil, List.append_nil]
    exact .stop hn
  | cons chunk rest ih =>
    rw [List.flatten_cons, List.length_append, ← Nat.add_assoc] at hfit
    obtain ⟨events, left, bad, hsplit⟩ := exists_splits L ref (s.pending ++ chunk)
    have hstep := feedStep_of_splits hf (fitsPending_mono (Nat.le_add_right _ _) hfit) hsplit
    rw [List.flatten_cons, ← List.append_assoc]
    cases bad with
    | some F =>
      obtain ⟨t, hrest, hsame⟩ :=
        feedAll_of_fault L ref rest (afterFeed (feedReady L ref chunk s) ref events left (some F)) rfl
      obtain ⟨hfault, hcause, hlen, hframe, -⟩ := hsame.sameOutcome
      refine ⟨events, left ++ rest.flatten, some F, t, hsplit.append_of_malformed _, ?_, hfault, hcause, hlen,
        hframe, fun hclear => absurd (hclear.symm.trans hfault) Bool.false_ne_true⟩
      simpa using feedAll_cons hstep rfl hrest
    | none =>
      have hroom : left.length + rest.flatten.length ≤
          s.pending.length + chunk.length + rest.flatten.length := by
        have := hsplit.length_le
        rw [List.length_append] at this
        omega
      obtain ⟨events', left', bad', t, hsplit', hrest, hend⟩ :=
        ih (afterFeed (feedReady L ref chunk s) ref events left none) hf hsplit.noCompleteFrame
          (fitsPending_mono hroom hfit)
      refine ⟨events ++ events', left', bad', t, hsplit.append hsplit', feedAll_cons hstep rfl hrest, ?_⟩
      cases bad' <;> exact hend

/-- Settles O21: with the fault set every FEED is refused, and from a drained state both ways follow one
splitting of the whole stream (`feedAll_splits`). -/
theorem chunkPartitionInvariance : Obligations.ChunkPartitionInvariance := by
  intro L ref s chunks hs hfit
  by_cases hf : s.fault = true
  · obtain ⟨t, hchunks, hpt, hft, hct, hlt, hrt⟩ := feedAll_of_fault L ref chunks s hf
    obtain ⟨u, hwhole, hpu, hfu, hcu, hlu, hru⟩ := feedAll_of_fault L ref [chunks.flatten] s hf
    exact ⟨[], t, u, hchunks, hwhole, hft.trans hfu.symm, hct.trans hcu.symm, hlt.trans hlu.symm,
      hrt.trans hru.symm, fun _ => hpt.trans hpu.symm⟩
  · have hf : s.fault = false := by simpa using hf
    obtain ⟨events, left, bad, t, hsplit, hchunks, hend⟩ :=
      feedAll_splits L ref chunks s hf (hs.drained hf) hfit
    obtain ⟨err, hresult⟩ := afterFeed_result (feedReady L ref chunks.flatten s) ref events left bad
    refine ⟨events, t, afterFeed (feedReady L ref chunks.flatten s) ref events left bad, hchunks, ?_, ?_⟩
    · exact feedAll_singleton (feedStep_of_splits hf hfit hsplit) hresult
    · cases bad <;> exact hend

end Sys2Proof.Machine

/-! # Datapoint decode, told the type (`41_decode.md`)

A DECODE_AS row is its type's command (`exec_decodeAsRow`), so it answers by the payload's length (R140): with the
value of the type's decoder (R142 to R158), or with LengthMismatch. What remains of each type is its decoder, said
in the plain numbers of `Claims`. -/

namespace Sys2Proof.Machine

open Sys2Proof.Claims

/-! ## A DECODE_AS row by the payload's length (R140, R141) -/

/-- A payload of the type's size is answered with the value of the type's decoder. -/
theorem exec_decodeAsRow_of_length {d : Dpt} {s : State} {P : Bytes} {ref : Ref} (hop : s.operand = .bytesRef P ref)
    (hP : P.length = dptSize d) :
    exec (decodeAsRow d) s = .next (s.reply (.decoded ⟨.noError, d.code, some (decDpt d P ref)⟩)) := by
  rw [exec_decodeAsRow, decodeAsCommand_of hop, decodeAs_code, decodeSized_of_length hP]

/-- A payload of another size is answered with LengthMismatch and no value. -/
theorem exec_decodeAsRow_of_length_ne {d : Dpt} {s : State} {P : Bytes} {ref : Ref}
    (hop : s.operand = .bytesRef P ref) (hP : P.length ≠ dptSize d) :
    exec (decodeAsRow d) s = .next (s.reply (.decoded ⟨.lengthMismatch, d.code, none⟩)) := by
  rw [exec_decodeAsRow, decodeAsCommand_of hop, decodeAs_code, decodeSized_of_length_ne hP]

/-- A row answers the values that its type's decoder gives over the payloads of the type's size. -/
theorem answersDecoded_decodeAsRow (d : Dpt) {value : Bytes → Ref → Value}
    (h : ∀ (P : Bytes) (ref : Ref), P.length = dptSize d → decDpt d P ref = value P ref) :
    AnswersDecoded (decodeAsRow d) d.code (dptSize d) value := by
  intro s P ref hop hP
  rw [exec_decodeAsRow_of_length hop hP, h P ref hP]
  rfl

/-- R80's table is the sixteen types, each with its row, its code and its size. -/
theorem decodeRows_eq : decodeRows = Dpt.all.map fun d => (decodeAsRow d, d.code, dptSize d) := rfl

/-- Settles O42: each of the sixteen rows is a type's, and its size is the one that the command checks. -/
theorem decodeLengthMismatch : Obligations.DecodeLengthMismatch := by
  intro row hrow s P ref hop hP
  rw [decodeRows_eq] at hrow
  obtain ⟨d, -, rfl⟩ := List.mem_map.1 hrow
  exact exec_decodeAsRow_of_length_ne hop hP

/-! ## Big-endian fields and two's complement (R9, R10) -/

/-- The number of a byte of a payload. -/
theorem toNat_byteAt (P : Bytes) (i : Nat) : (byteAt P i).toNat = byteNum P i := rfl

/-- A big-endian 16-bit field is the number of its two bytes. -/
theorem toNat_u16be_eq_big16 (P : Bytes) (i : Nat) : (u16be P i).toNat = big16 P i := by
  simp only [toNat_u16be, toNat_byteAt, big16]
  omega

/-- A big-endian 32-bit field is the number of its four bytes. -/
theorem toNat_u32be_eq_big32 (P : Bytes) : (u32be P 0).toNat = big32 P := by
  simp only [toNat_u32be, toNat_byteAt, big32, big16, Nat.reduceAdd]
  omega

/-- The signed reading of a word is the two's complement of its number. -/
theorem toInt_eq_signed {w : Nat} (x : BitVec (w + 1)) : x.toInt = signed (w + 1) x.toNat := by
  have hhalf : 2 * x.toNat < 2 ^ (w + 1) ↔ x.toNat < 2 ^ w := by omega
  simp [BitVec.toInt_eq_toNat_cond, signed, hhalf]

/-! ## Integers (R142 to R144, R146 to R149, R154, R155) -/

/-- DPT1: the second subtraction is made exactly for a byte above 65 (R142). -/
theorem decDpt1_eq (P : Bytes) : decDpt1 P =
    .int (if byteNum P 0 ≤ 65 then (byteNum P 0 : Int) - 64 else (byteNum P 0 : Int) - 128) := by
  simp only [decDpt1]
  rw [toNat_byteAt]
  by_cases h : byteNum P 0 ≤ 65
  · rw [if_neg (by omega), if_pos h]
  · rw [if_pos (by omega), if_neg h, sub_sub]
    rfl

/-- Settles O32: the decoder is `decDpt1_eq`. -/
theorem decodeDpt1 : Obligations.DecodeDpt1 :=
  answersDecoded_decodeAsRow .dpt1 fun P _ _ => decDpt1_eq P

/-- DPT2: a mask of 2 bits is the remainder by 4 (R143). -/
theorem decDpt2_eq (P : Bytes) : decDpt2 P = .int (byteNum P 0 % 4 : Nat) :=
  congrArg (fun n : Nat => Value.int n) (Nat.and_two_pow_sub_one_eq_mod (byteNum P 0) 2)

/-- DPT3: a mask of 4 bits is the remainder by 16 (R144). -/
theorem decDpt3_eq (P : Bytes) : decDpt3 P = .int (byteNum P 0 % 16 : Nat) :=
  congrArg (fun n : Nat => Value.int n) (Nat.and_two_pow_sub_one_eq_mod (byteNum P 0) 4)

/-- DPT7: the big-endian number of 16 bits (R148). -/
theorem decDpt7_eq (P : Bytes) : decDpt7 P = .int (big16 P 0) := by
  rw [decDpt7, toNat_u16be_eq_big16]

/-- DPT12: the big-endian number of 32 bits (R154). -/
theorem decDpt12_eq (P : Bytes) : decDpt12 P = .int (big32 P) := by
  rw [decDpt12, toNat_u32be_eq_big32]

/-- Settles O33: each decoder is its number (`decDpt2_eq` to `decDpt12_eq`), and DPT5's is the byte itself. -/
theorem decodeUnsigned : Obligations.DecodeUnsigned :=
  ⟨answersDecoded_decodeAsRow .dpt2 fun P _ _ => decDpt2_eq P,
    answersDecoded_decodeAsRow .dpt3 fun P _ _ => decDpt3_eq P,
    answersDecoded_decodeAsRow .dpt5 fun _ _ _ => rfl,
    answersDecoded_decodeAsRow .dpt7 fun P _ _ => decDpt7_eq P,
    answersDecoded_decodeAsRow .dpt12 fun P _ _ => decDpt12_eq P⟩

/-- DPT6: the two's complement of 8 bits (R147). -/
theorem decDpt6_eq (P : Bytes) : decDpt6 P = .int (signed 8 (byteNum P 0)) := by
  rw [decDpt6, toInt_eq_signed, toNat_byteAt]

/-- DPT8: the two's complement of 16 bits (R149). -/
theorem decDpt8_eq (P : Bytes) : decDpt8 P = .int (signed 16 (big16 P 0)) := by
  rw [decDpt8, toInt_eq_signed, toNat_u16be_eq_big16]

/-- DPT13: the two's complement of 32 bits (R155). -/
theorem decDpt13_eq (P : Bytes) : decDpt13 P = .int (signed 32 (big32 P)) := by
  rw [decDpt13, toInt_eq_signed, toNat_u32be_eq_big32]

/-- Settles O34: a signed reading is two's complement (`toInt_eq_signed`) over the big-endian number. -/
theorem decodeSigned : Obligations.DecodeSigned :=
  ⟨answersDecoded_decodeAsRow .dpt6 fun P _ _ => decDpt6_eq P,
    answersDecoded_decodeAsRow .dpt8 fun P _ _ => decDpt8_eq P,
    answersDecoded_decodeAsRow .dpt13 fun P _ _ => decDpt13_eq P⟩

/-! ## Texts (R145, R157) -/

/-- Settles O35: the decoder splits at 128 as R145 does, and the opaque text denotes the parameter's. -/
theorem decodeDpt4 : Obligations.DecodeDpt4 :=
  ⟨answersDecoded_decodeAsRow .dpt4 fun _ _ _ => rfl, fun _ => rfl⟩

/-- Reading every offset of a payload in order gives the payload. -/
theorem map_byteAt_range (P : Bytes) : (List.range P.length).map (byteAt P) = P := by
  apply List.ext_getElem
  · simp
  · intro i _ hi
    simp [byteAt, hi]

/-- Settles O40: the fourteen offsets that the decoder reads are all of the payload's, in order. -/
theorem decodeDpt16 : Obligations.DecodeDpt16 := by
  refine answersDecoded_decodeAsRow .dpt16 fun P _ (hP : P.length = 14) => ?_
  calc decDpt16 P = .text (((List.range 14).map (byteAt P)).map BitVec.toNat) := by
        rw [decDpt16, List.map_map]; rfl
    _ = .text (P.map BitVec.toNat) := by rw [← hP, map_byteAt_range]

/-! ## Floating-point numbers (R150, R156) -/

/-- DPT9: the fields of the big-endian word (R150). -/
theorem decDpt9_eq (P : Bytes) : decDpt9 P =
    .busFloat ((big16 P 0 % 2048 : Nat) - 2048 * (big16 P 0 / 32768 : Nat)) (big16 P 0 / 2048 % 16) := by
  rw [decDpt9, busFloatOf_eq, toNat_u16be_eq_big16]

/-- The rational that a bus float denotes (R13, R150). -/
theorem rational_busFloat (m : Int) (e : Nat) : (Value.busFloat m e).rational = some ((m : Rat) * 2 ^ e / 100) := by
  rw [Value.rational, Nat.cast_pow, Nat.cast_ofNat]

/-- Settles O36: the decoder is `decDpt9_eq`, over every word. -/
theorem decodeDpt9 : Obligations.DecodeDpt9 :=
  ⟨answersDecoded_decodeAsRow .dpt9 fun P _ _ => decDpt9_eq P, rational_busFloat⟩

/-- DPT14: the pattern of the big-endian number (R156). -/
theorem decDpt14_eq (P : Bytes) : decDpt14 P = .f32 (BitVec.ofNat 32 (big32 P)) := by
  rw [decDpt14, ← toNat_u32be_eq_big32, BitVec.ofNat_toNat, BitVec.setWidth_eq]

/-- Settles O39: the decoder is `decDpt14_eq`, over every pattern. -/
theorem decodeDpt14 : Obligations.DecodeDpt14 :=
  answersDecoded_decodeAsRow .dpt14 fun P _ _ => decDpt14_eq P

/-! ## Times, dates and colours (R151 to R153, R158) -/

/-- The low bits of a byte of a payload are a remainder (R8). -/
theorem bits_byteAt_low (P : Bytes) (i hi : Nat) : bits (byteAt P i) hi 0 = byteNum P i % 2 ^ (hi + 1) := by
  rw [bits_eq, toNat_byteAt, Nat.pow_zero, Nat.div_one, Nat.sub_zero]

/-- The top three bits of a byte of a payload, the weekday of DPT10 (R151). -/
theorem bits_byteAt_weekday (P : Bytes) (i : Nat) : bits (byteAt P i) 7 5 = byteNum P i / 32 := by
  have hlt : byteNum P i < 256 := (byteAt P i).isLt
  rw [bits_eq, toNat_byteAt]
  exact Nat.mod_eq_of_lt (by omega)

/-- DPT10: the fields as read, and the day resolved against the reference date (R151, R152). -/
theorem decDpt10_eq (P : Bytes) (ref : Ref) : decDpt10 P ref =
    .time (byteNum P 0 / 32) (byteNum P 0 % 32) (byteNum P 1 % 64) (byteNum P 2 % 64)
      (resolveDay (byteNum P 0 / 32) ref) := by
  simp only [decDpt10, bits_byteAt_weekday, bits_byteAt_low, Nat.reduceAdd, Nat.reducePow]

/-- Weekday 0 keeps the reference day (R152). -/
theorem resolveDay_zero (ref : Ref) : resolveDay 0 ref = ref.day := rfl

/-- Any other weekday gives the day within three days of the reference that has it (R152). -/
theorem resolveDay_of_ne_zero {wd : Nat} (hwd : wd ≠ 0) (ref : Ref) :
    -3 ≤ resolveDay wd ref - ref.day ∧ resolveDay wd ref - ref.day ≤ 3 ∧
      (7 : Int) ∣ ref.weekday.number + (resolveDay wd ref - ref.day) - wd := by
  rw [resolveDay, if_neg hwd]
  omega

/-- Settles O37: the day is `resolveDay`'s, which is the reference day for weekday 0 (`resolveDay_zero`) and else
the one of the week around it (`resolveDay_of_ne_zero`). -/
theorem decodeDpt10 : Obligations.DecodeDpt10 := by
  intro s P ref hop hP
  refine ⟨resolveDay (byteNum P 0 / 32) ref, ?_, fun h => by rw [h, resolveDay_zero],
    fun h => resolveDay_of_ne_zero h ref⟩
  rw [← decDpt10_eq]
  exact exec_decodeAsRow_of_length (d := .dpt10) hop hP

/-- DPT11: the day and the month as remainders, and the year folded at 90 (R153). -/
theorem decDpt11_eq (P : Bytes) : decDpt11 P =
    .date (byteNum P 0 % 32) (byteNum P 1 % 16)
      (if byteNum P 2 < 90 then 2000 + byteNum P 2 else 1900 + byteNum P 2) := by
  simp only [decDpt11, bits_byteAt_low, Nat.reduceAdd, Nat.reducePow]
  rw [toNat_byteAt]

/-- Settles O38: the decoder is `decDpt11_eq`, with no check of the calendar. -/
theorem decodeDpt11 : Obligations.DecodeDpt11 :=
  answersDecoded_decodeAsRow .dpt11 fun P _ _ => decDpt11_eq P

/-- Settles O41: the decoder reads the three bytes from the last to the first. -/
theorem decodeDpt232 : Obligations.DecodeDpt232 := fun _ _ _ _ _ hop =>
  exec_decodeAsRow_of_length (d := .dpt232) hop rfl

end Sys2Proof.Machine

/-! # Datapoint decode, the type guessed (`42_guess.md`)

DECODE_GUESS answers the guess of the length field (R185): for 8, 9 and 10 a decode of a fixed type and size (R181 to
R183), and for every other length field the fallback over the first four bytes (R184). The values are those of the
decoders that DECODE_AS uses. -/

namespace Sys2Proof.Machine

open Sys2Proof.Claims

/-- DECODE_GUESS answers the guess over its payload and writes nothing else (R185). -/
theorem exec_decodeGuess_of {n : Byte} {s : State} {P : Bytes} (hop : s.operand = .bytes P) :
    exec (.decodeGuess n) s = .next (s.reply (.decoded (decodeGuessed n P))) :=
  congrArg Host.Outcome.next (decodeGuessCommand_of hop)

/-- Length field 8 is a guess of DPT1 (R181). -/
theorem decodeGuessed_eight (P : Bytes) : decodeGuessed 8 P =
    if P.length = 1 then ⟨.noError, 1, some (decDpt1 P)⟩ else ⟨.lengthMismatch, 1, none⟩ := rfl

/-- Length field 9 is a guess of DPT5, whose value is the byte itself (R182). -/
theorem decodeGuessed_nine (P : Bytes) : decodeGuessed 9 P =
    if P.length = 1 then ⟨.noError, 5, some (.int (byteNum P 0))⟩ else ⟨.lengthMismatch, 5, none⟩ := rfl

/-- Length field 10 is a guess of DPT9 (R183). -/
theorem decodeGuessed_ten (P : Bytes) : decodeGuessed 10 P =
    if P.length = 2 then ⟨.noError, 9, some (decDpt9 P)⟩ else ⟨.lengthMismatch, 9, none⟩ := rfl

/-- Every length field but 8, 9 and 10 is the fallback's (R184). -/
theorem decodeGuessed_of_ne {n : Byte} (h8 : n.toNat ≠ 8) (h9 : n.toNat ≠ 9) (h10 : n.toNat ≠ 10) (P : Bytes) :
    decodeGuessed n P = fallback14 P := by
  rw [decodeGuessed, if_neg (ne_of_apply_ne BitVec.toNat h8), if_neg (ne_of_apply_ne BitVec.toNat h9),
    if_neg (ne_of_apply_ne BitVec.toNat h10)]

/-- A byte of a payload's front is the payload's. -/
theorem byteAt_take {i k : Nat} (h : i < k) (P : Bytes) : byteAt (P.take k) i = byteAt P i := by
  simp only [byteAt, List.getD_eq_getElem?_getD, List.getElem?_take_of_lt h]

/-- DPT14 reads the first four bytes alone (R156), so the fallback may hand it the whole payload (R184). -/
theorem decDpt14_take_four (P : Bytes) : decDpt14 (P.take 4) = decDpt14 P := by
  simp only [decDpt14, u32be, byteAt_take, Nat.reduceAdd, Nat.reduceLT]

/-- The fallback is DPT14 over any payload of at least four bytes (R184). -/
theorem fallback14_eq (P : Bytes) : fallback14 P =
    if P.length < 4 then ⟨.lengthMismatch, 14, none⟩ else ⟨.noError, 14, some (decDpt14 P)⟩ := by
  rw [fallback14, decDpt14_take_four]
  rfl

/-- Settles O44: 8, 9 and 10 are a guess of one type and size (`decodeGuessed_eight`, `decodeGuessed_nine`,
`decodeGuessed_ten`), and any other length field is the fallback (`decodeGuessed_of_ne`). -/
theorem guessByLengthField : Obligations.GuessByLengthField := by
  intro n s P hop
  rw [exec_decodeGuess_of hop, ← decDpt1_eq, ← decDpt9_eq, ← decDpt14_eq]
  refine congrArg (fun r => Host.Outcome.next (s.reply (.decoded r))) ?_
  by_cases h8 : n.toNat = 8
  · rw [if_pos h8, ← decodeGuessed_eight, BitVec.eq_of_toNat_eq (y := 8) h8]
  by_cases h9 : n.toNat = 9
  · rw [if_neg h8, if_pos h9, ← decodeGuessed_nine, BitVec.eq_of_toNat_eq (y := 9) h9]
  by_cases h10 : n.toNat = 10
  · rw [if_neg h8, if_neg h9, if_pos h10, ← decodeGuessed_ten, BitVec.eq_of_toNat_eq (y := 10) h10]
  · rw [if_neg h8, if_neg h9, if_neg h10, ← fallback14_eq, decodeGuessed_of_ne h8 h9 h10]

end Sys2Proof.Machine

/-! # Datapoint encode (`43_encode.md`)

An ENCODE row is its type's command (`exec_encodeRow`), so it answers what the type's encoder gives (R200). Each
encoder is said once in the plain numbers of `Claims` (R191 to R199). The round trip (R201) is then that equation,
the decoder's, and the range that the encoder checked. -/

namespace Sys2Proof.Machine

open Sys2Proof.Claims

/-- A row answers what its type's encoder gives (R200). -/
theorem answersEncoded_encodeRow (d : Dpt) {v : Native} {e : Encoded} (h : encodeAs d.code v = e) :
    AnswersEncoded (encodeRow d) v e := by
  intro s hop
  rw [exec_encodeRow, encodeCommand_of hop, h]
  rfl

/-! ## Bytes of numbers (R9, R52) -/

/-- The low byte of a number that is not negative. -/
theorem byteOf_of_nonneg {i : Int} (h : 0 ≤ i) : byteOf i = BitVec.ofNat 8 i.toNat := by
  obtain ⟨n, rfl⟩ := Int.eq_ofNat_of_zero_le h
  exact BitVec.ofInt_natCast 8 n

/-- The big-endian bytes of a word are those of its number. -/
theorem bytesOfWord_eq (w : Word) : bytesOfWord w = twoBytes w.toNat := by
  rw [twoBytes, ← toNat_hiByte, ← toNat_loByte]
  simp only [BitVec.ofNat_toNat, BitVec.setWidth_eq, bytesOfWord]

/-- The big-endian number of the two bytes of a 16-bit number. -/
theorem big16_twoBytes {n : Nat} (h : n < 65536) : big16 (twoBytes n) 0 = n := by
  show 256 * (n / 256 % 256) + n % 256 % 256 = n
  omega

/-! ## The encoders in numbers (R191 to R195, R197 to R199) -/

/-- A number of one byte (R192, R193, R194). -/
theorem encSmall_eq (max i : Int) : encSmall max i =
    if 0 ≤ i ∧ i ≤ max then ⟨.noError, [BitVec.ofNat 8 i.toNat]⟩ else ⟨.outOfRange, []⟩ := by
  rw [encSmall]
  split
  · next h => rw [byteOf_of_nonneg h.1]; rfl
  · rfl

/-- A number of two bytes (R195). -/
theorem encDpt7_eq (i : Int) : encDpt7 i =
    if 0 ≤ i ∧ i ≤ 65535 then ⟨.noError, twoBytes i.toNat⟩ else ⟨.outOfRange, []⟩ := by
  rw [encDpt7]
  split
  · next h =>
    have hnum : (BitVec.ofInt 16 i).toNat = i.toNat := by rw [BitVec.toNat_ofInt]; omega
    rw [bytesOfWord_eq, hnum]
    rfl
  · rfl

/-- The first byte of DPT10: a weekday and an hour share no bit (R197). -/
theorem weekday_or_hour {wd h : Int} (hwd : 0 ≤ wd ∧ wd ≤ 7) (hh : 0 ≤ h ∧ h ≤ 23) :
    byteOf wd <<< 5 ||| byteOf h = BitVec.ofNat 8 (32 * wd + h).toNat := by
  obtain ⟨m, rfl⟩ := Int.eq_ofNat_of_zero_le hwd.1
  obtain ⟨n, rfl⟩ := Int.eq_ofNat_of_zero_le hh.1
  have hm : m <<< 5 < 2 ^ 8 := by rw [Nat.shiftLeft_eq]; omega
  apply BitVec.eq_of_toNat_eq
  rw [byteOf_of_nonneg hwd.1, byteOf_of_nonneg hh.1, BitVec.toNat_or, BitVec.toNat_shiftLeft]
  simp only [BitVec.toNat_ofNat, Int.toNat_natCast]
  rw [Nat.mod_eq_of_lt (by omega : m < 2 ^ 8), Nat.mod_eq_of_lt (by omega : n < 2 ^ 8), Nat.mod_eq_of_lt hm,
    ← Nat.shiftLeft_add_eq_or_of_lt (by omega : n < 2 ^ 5), Nat.shiftLeft_eq]
  omega

/-- The time fields within their ranges (R197). -/
theorem encDpt10_eq (wd h mi sec : Int) : encDpt10 wd h mi sec =
    if 0 ≤ wd ∧ wd ≤ 7 ∧ 0 ≤ h ∧ h ≤ 23 ∧ 0 ≤ mi ∧ mi ≤ 59 ∧ 0 ≤ sec ∧ sec ≤ 59 then
      ⟨.noError, [BitVec.ofNat 8 (32 * wd + h).toNat, BitVec.ofNat 8 mi.toNat, BitVec.ofNat 8 sec.toNat]⟩
    else ⟨.outOfRange, []⟩ := by
  rw [encDpt10]
  split
  · next hrange =>
    obtain ⟨hwd0, hwd7, hh0, hh23, hmi, -, hsec, -⟩ := hrange
    rw [weekday_or_hour ⟨hwd0, hwd7⟩ ⟨hh0, hh23⟩, byteOf_of_nonneg hmi, byteOf_of_nonneg hsec]
    rfl
  · rfl

/-- The date fields within their ranges, the year as given (R198). -/
theorem encDpt11_eq (d mo y : Int) : encDpt11 d mo y =
    if 1 ≤ d ∧ d ≤ 31 ∧ 1 ≤ mo ∧ mo ≤ 12 ∧ 0 ≤ y ∧ y ≤ 99 then
      ⟨.noError, [BitVec.ofNat 8 d.toNat, BitVec.ofNat 8 mo.toNat, BitVec.ofNat 8 y.toNat]⟩
    else ⟨.outOfRange, []⟩ := by
  rw [encDpt11]
  split
  · next hrange =>
    obtain ⟨hd, -, hmo, -, hy, -⟩ := hrange
    rw [byteOf_of_nonneg (by omega), byteOf_of_nonneg (by omega), byteOf_of_nonneg hy]
    rfl
  · rfl

/-- The big-endian bytes of a 32-bit pattern are those of its two halves (R199). -/
theorem bytesOfLong_eq (w : Long) :
    bytesOfLong w = twoBytes (w.toNat / 65536) ++ twoBytes (w.toNat % 65536) := by
  have hbyte (i n : Nat) (h : n = w.toNat / 2 ^ i % 256) : w.extractLsb' i 8 = BitVec.ofNat 8 n := by
    apply BitVec.eq_of_toNat_eq
    simp [BitVec.extractLsb'_toNat, Nat.shiftRight_eq_div_pow, h]
  rw [bytesOfLong, twoBytes, twoBytes, hbyte 24 (w.toNat / 65536 / 256), hbyte 16 (w.toNat / 65536 % 256),
    hbyte 8 (w.toNat % 65536 / 256), hbyte 0 (w.toNat % 65536 % 256)]
  · rfl
  all_goals omega

/-- Settles O45: the two bytes, evaluated. -/
theorem encodeDpt1 : Obligations.EncodeDpt1 := fun b =>
  answersEncoded_encodeRow .dpt1 (by cases b <;> rfl)

/-- Settles O46: DPT2, 3 and 5 are `encSmall` with their bounds, and DPT7 is `encDpt7_eq`. -/
theorem encodeIntegers : Obligations.EncodeIntegers := fun i =>
  ⟨answersEncoded_encodeRow .dpt2 (encSmall_eq 3 i), answersEncoded_encodeRow .dpt3 (encSmall_eq 15 i),
    answersEncoded_encodeRow .dpt5 (encSmall_eq 255 i), answersEncoded_encodeRow .dpt7 (encDpt7_eq i)⟩

/-- Settles O49: the encoder is `encDpt10_eq`. -/
theorem encodeDpt10 : Obligations.EncodeDpt10 := fun wd h mi sec =>
  answersEncoded_encodeRow .dpt10 (encDpt10_eq wd h mi sec)

/-- Settles O50: the encoder is `encDpt11_eq`. -/
theorem encodeDpt11 : Obligations.EncodeDpt11 := fun d mo y =>
  answersEncoded_encodeRow .dpt11 (encDpt11_eq d mo y)

/-- Settles O51: no pattern is refused, and its bytes are `bytesOfLong_eq`. -/
theorem encodeDpt14 : Obligations.EncodeDpt14 := fun w =>
  answersEncoded_encodeRow .dpt14 (congrArg (Encoded.mk .noError) (bytesOfLong_eq w))

/-! ## DPT9 (R196)

The encodable values at exponent `e` are a half-open range (`mantissaFits_iff`) that grows with `e`, so the least
exponent that fits is at most `e` exactly when `e` fits. -/

/-- The rounded mantissa is the nearest integer. -/
theorem nearest_mantissaAt (q : Rat) (e : Nat) : Nearest q e (mantissaAt q e) :=
  (mantissaAt_eq_iff q e _).1 rfl

/-- The encoder's check is the decoder's range (R83). -/
theorem mantissaFits_iff_inMantissaRange (m : Int) : mantissaFits m = true ↔ InMantissaRange m := by
  simp [mantissaFits, InMantissaRange]

/-- At an exponent that does not fit, no nearest integer is in range. -/
theorem not_inMantissaRange_of_nearest {q : Rat} {e : Nat} {m : Int} (hfit : mantissaFits (mantissaAt q e) = false)
    (hm : Nearest q e m) : ¬ InMantissaRange m := by
  obtain rfl : mantissaAt q e = m := (mantissaAt_eq_iff q e m).2 hm
  rw [← mantissaFits_iff_inMantissaRange, hfit]
  exact Bool.false_ne_true

/-- The bytes of a DPT9 word (R83). -/
theorem bytesOfWord_busFloatWord {m : Int} {e : Nat} (hm : InMantissaRange m) (he : e < 16) :
    bytesOfWord (busFloatWord m e) = twoBytes (busFloatNumber m e) := by
  rw [bytesOfWord_eq, toNat_busFloatWord hm.1 hm.2 he, busFloatNumber]

/-- Settles O47: the two cases of the encoder (`encDpt9_cases`), in the words of the rules. -/
theorem encodeDpt9 : Obligations.EncodeDpt9 := by
  refine ⟨fun q => ?_, answersEncoded_encodeRow .dpt9 rfl⟩
  rcases encDpt9_cases q with ⟨e, he, hfit, hleast, henc⟩ | ⟨hnone, henc⟩
  · have hm : InMantissaRange (mantissaAt q e) := (mantissaFits_iff_inMantissaRange _).1 hfit
    rw [bytesOfWord_busFloatWord hm he] at henc
    exact .inl ⟨e, mantissaAt q e, he, hm, nearest_mantissaAt q e,
      fun e' he' _ => not_inMantissaRange_of_nearest (hleast e' he'), answersEncoded_encodeRow .dpt9 henc⟩
  · exact .inr ⟨fun e he _ => not_inMantissaRange_of_nearest (hnone e he), answersEncoded_encodeRow .dpt9 henc⟩

/-- A value that fits at an exponent fits at every larger one. -/
theorem mantissaFits_mono {q : Rat} {e e' : Nat} (hle : e ≤ e') (hfit : mantissaFits (mantissaAt q e) = true) :
    mantissaFits (mantissaAt q e') = true := by
  rw [mantissaFits_iff] at hfit ⊢
  have hpow : (2 : Rat) ^ e ≤ 2 ^ e' := pow_le_pow_right₀ (by norm_num) hle
  constructor <;> linarith

/-- The values that fit at exponent 15, the largest (R196). -/
theorem mantissaFits_fifteen_iff (q : Rat) :
    mantissaFits (mantissaAt q 15) = true ↔ -67125248 / 100 ≤ q ∧ q < 67092480 / 100 := by
  rw [mantissaFits_iff]
  constructor <;> rintro ⟨hlow, hhigh⟩ <;> constructor <;> linarith

/-- The values that fit at exponent 1 (R201). -/
theorem mantissaFits_one_iff (q : Rat) :
    mantissaFits (mantissaAt q 1) = true ↔ -4097 / 100 ≤ q ∧ q < 4095 / 100 := by
  rw [mantissaFits_iff]
  constructor <;> rintro ⟨hlow, hhigh⟩ <;> constructor <;> linarith

/-- Settles O48: some exponent fits exactly when 15 does (`mantissaFits_mono`), and those values are
`mantissaFits_fifteen_iff`. -/
theorem encodeDpt9Range : Obligations.EncodeDpt9Range := by
  intro q
  rw [← mantissaFits_fifteen_iff]
  rcases encDpt9_cases q with ⟨e, he, hfit, -, henc⟩ | ⟨hnone, henc⟩
  · exact ⟨fun _ => ⟨_, answersEncoded_encodeRow .dpt9 henc⟩,
      fun hout => absurd (mantissaFits_mono (Nat.le_of_lt_succ he) hfit) hout⟩
  · exact ⟨fun hin => absurd hin (by simp [hnone 15]), fun _ => answersEncoded_encodeRow .dpt9 henc⟩

/-! ## The round trip (R201) -/

/-- What an encoder with a range accepts is in the range. -/
theorem range_of_accepted {range : Prop} [Decidable range] {P Q : Bytes}
    (h : (if range then ⟨.noError, Q⟩ else ⟨.outOfRange, []⟩ : Encoded) = ⟨.noError, P⟩) :
    range ∧ Q = P := by
  split at h
  · next hrange => exact ⟨hrange, congrArg Encoded.bytes h⟩
  · cases h

/-- A payload of the type's size decodes to the value of the type's decoder (R140). -/
theorem decodeAs_of_length (d : Dpt) {P : Bytes} (ref : Ref) (hP : P.length = dptSize d) {v : Value}
    (hv : decDpt d P ref = v) : decodeAs d.code P ref = ⟨.noError, d.code, some v⟩ := by
  rw [decodeAs_code, decodeSized_of_length hP, hv]

/-- A one-byte integer that was accepted: its range, and the payload that holds it. -/
theorem encSmall_accepted {max i : Int} {P : Bytes} (hmax : max ≤ 255) (h : encSmall max i = ⟨.noError, P⟩) :
    (0 ≤ i ∧ i ≤ max) ∧ P.length = 1 ∧ (byteNum P 0 : Int) = i := by
  obtain ⟨hrange, rfl⟩ := range_of_accepted ((encSmall_eq max i).symm.trans h)
  refine ⟨hrange, rfl, ?_⟩
  show ((i.toNat % 256 : Nat) : Int) = i
  omega

/-- DPT2, DPT3, DPT5 and DPT7 decode to the integer that was encoded. -/
theorem decodeAs_of_encodeAs_int {k : Byte} {i : Int} {P : Bytes} (ref : Ref) (hk : k = 2 ∨ k = 3 ∨ k = 5 ∨ k = 7)
    (h : encodeAs k (.int i) = ⟨.noError, P⟩) : decodeAs k P ref = ⟨.noError, k, some (.int i)⟩ := by
  rcases hk with rfl | rfl | rfl | rfl
  · obtain ⟨hrange, hlen, hnum⟩ := encSmall_accepted (max := 3) (by decide) h
    exact decodeAs_of_length .dpt2 ref hlen ((decDpt2_eq P).trans (congrArg Value.int (by omega)))
  · obtain ⟨hrange, hlen, hnum⟩ := encSmall_accepted (max := 15) (by decide) h
    exact decodeAs_of_length .dpt3 ref hlen ((decDpt3_eq P).trans (congrArg Value.int (by omega)))
  · obtain ⟨-, hlen, hnum⟩ := encSmall_accepted (max := 255) le_rfl h
    exact decodeAs_of_length .dpt5 ref hlen (congrArg Value.int hnum)
  · obtain ⟨hrange, rfl⟩ := range_of_accepted ((encDpt7_eq i).symm.trans h)
    refine decodeAs_of_length .dpt7 ref rfl ((decDpt7_eq _).trans (congrArg Value.int ?_))
    rw [big16_twoBytes (by omega)]
    omega

/-- DPT14 decodes a pattern's four bytes as the pattern. -/
theorem decDpt14_bytesOfLong (w : Long) : decDpt14 (bytesOfLong w) = .f32 w := by
  have hnum : big32 (bytesOfLong w) = w.toNat := by
    have hw := w.isLt
    rw [bytesOfLong_eq]
    calc 65536 * big16 (twoBytes (w.toNat / 65536)) 0 + big16 (twoBytes (w.toNat % 65536)) 0
        = 65536 * (w.toNat / 65536) + w.toNat % 65536 := by
          rw [big16_twoBytes (by omega), big16_twoBytes (by omega)]
      _ = w.toNat := Nat.div_add_mod ..
  rw [decDpt14_eq, hnum, BitVec.ofNat_toNat, BitVec.setWidth_eq]

/-- The numbers of three bytes, as DPT10 and DPT11 have them. -/
theorem byteNum_three {a b c : Nat} (ha : a < 256) (hb : b < 256) (hc : c < 256) :
    byteNum [BitVec.ofNat 8 a, BitVec.ofNat 8 b, BitVec.ofNat 8 c] 0 = a ∧
    byteNum [BitVec.ofNat 8 a, BitVec.ofNat 8 b, BitVec.ofNat 8 c] 1 = b ∧
    byteNum [BitVec.ofNat 8 a, BitVec.ofNat 8 b, BitVec.ofNat 8 c] 2 = c :=
  ⟨Nat.mod_eq_of_lt ha, Nat.mod_eq_of_lt hb, Nat.mod_eq_of_lt hc⟩

/-- DPT10 decodes to the four fields that were encoded. -/
theorem decodeAs_of_encodeAs_tuple4 {wd h mi sec : Int} {P : Bytes} (ref : Ref)
    (henc : encodeAs 10 (.tuple4 wd h mi sec) = ⟨.noError, P⟩) :
    ∃ day, decodeAs 10 P ref = ⟨.noError, 10, some (.time wd.toNat h.toNat mi.toNat sec.toNat day)⟩ := by
  obtain ⟨hrange, rfl⟩ := range_of_accepted ((encDpt10_eq wd h mi sec).symm.trans henc)
  refine ⟨resolveDay wd.toNat ref, decodeAs_of_length .dpt10 ref rfl ((decDpt10_eq _ ref).trans ?_)⟩
  obtain ⟨hfirst, hmi, hsec⟩ := byteNum_three (a := (32 * wd + h).toNat) (b := mi.toNat) (c := sec.toNat)
    (by omega) (by omega) (by omega)
  have hweekday : (32 * wd + h).toNat / 32 = wd.toNat := by omega
  have hhour : (32 * wd + h).toNat % 32 = h.toNat := by omega
  rw [hfirst, hmi, hsec, hweekday, hhour, Nat.mod_eq_of_lt (by omega), Nat.mod_eq_of_lt (by omega)]

/-- DPT11 decodes to the day and the month that were encoded, and to the folded year. -/
theorem decodeAs_of_encodeAs_tuple3 {d mo y : Int} {P : Bytes} (ref : Ref)
    (henc : encodeAs 11 (.tuple3 d mo y) = ⟨.noError, P⟩) :
    decodeAs 11 P ref = ⟨.noError, 11, some (.date d.toNat mo.toNat
      (if y < 90 then 2000 + y.toNat else 1900 + y.toNat))⟩ := by
  obtain ⟨hrange, rfl⟩ := range_of_accepted ((encDpt11_eq d mo y).symm.trans henc)
  refine decodeAs_of_length .dpt11 ref rfl ((decDpt11_eq _).trans ?_)
  obtain ⟨hd, hmo, hy⟩ := byteNum_three (a := d.toNat) (b := mo.toNat) (c := y.toNat)
    (by omega) (by omega) (by omega)
  have hfold : y.toNat < 90 ↔ y < 90 := by omega
  rw [hd, hmo, hy, Nat.mod_eq_of_lt (by omega), Nat.mod_eq_of_lt (by omega), if_congr hfold rfl rfl]

/-- DPT1 decodes to the bit minus 64, and to the bit once an action code is set. -/
theorem decodeAs_of_encodeAs_bool {b : Bool} {B : Byte} (ref : Ref)
    (h : encodeAs 1 (.bool b) = ⟨.noError, [B]⟩) :
    decodeAs 1 [B] ref = ⟨.noError, 1, some (.int ((b.toNat : Int) - 64))⟩ ∧
    decodeAs 1 [0x80 ||| B] ref = ⟨.noError, 1, some (.int b.toNat)⟩ ∧
    decodeAs 1 [0x40 ||| B] ref = ⟨.noError, 1, some (.int b.toNat)⟩ := by
  obtain rfl : (if b then 0x01 else 0x00) = B := List.head_eq_of_cons_eq (congrArg Encoded.bytes h)
  cases b <;> exact ⟨rfl, rfl, rfl⟩

/-- Settles O54, type by type. -/
theorem encodeDecodeRoundTrip : Obligations.EncodeDecodeRoundTrip := by
  refine ⟨fun _ _ _ ref => decodeAs_of_encodeAs_int ref, fun w P ref h => ?_,
    fun _ _ _ _ _ ref => decodeAs_of_encodeAs_tuple4 ref, fun _ _ _ _ ref => decodeAs_of_encodeAs_tuple3 ref,
    fun _ _ ref => decodeAs_of_encodeAs_bool ref⟩
  obtain rfl : bytesOfLong w = P := congrArg Encoded.bytes h
  exact decodeAs_of_length .dpt14 ref rfl (decDpt14_bytesOfLong w)

/-- DPT9 decodes a word's two bytes as the word (R150). -/
theorem decDpt9_bytesOfWord (w : Word) : decDpt9 (bytesOfWord w) = busFloatOf w :=
  congrArg busFloatOf (wordOf_hi_lo w)

/-- Decoding a DPT9 word gives back its mantissa and exponent (R83, R150). -/
theorem busFloatOf_busFloatWord {m : Int} {e : Nat} (hm : InMantissaRange m) (he : e < 16) :
    busFloatOf (busFloatWord m e) = .busFloat m e := by
  obtain ⟨hlow, hhigh⟩ := hm
  rw [busFloatOf_eq, toNat_busFloatWord hlow hhigh he]
  congr 1
  · split <;> omega
  · split <;> omega

/-- Rounding errs by at most half a step (R201). -/
theorem abs_error_le_of_nearest {q : Rat} {e : Nat} {m : Int} (h : Nearest q e m) :
    |(m : Rat) * 2 ^ e / 100 - q| ≤ 2 ^ e / 200 := by
  obtain ⟨hlow, hhigh⟩ := h
  rw [abs_le]
  constructor <;> linarith

/-- Settles O55: the word decodes to the mantissa and exponent of the encoder, and an exponent of at most 1 was
chosen exactly when 1 fits. -/
theorem dpt9RoundTripError : Obligations.Dpt9RoundTripError := by
  intro q P ref h
  rcases encDpt9_cases q with ⟨e, he, hfit, hleast, henc⟩ | ⟨-, henc⟩
  · obtain rfl : bytesOfWord (busFloatWord (mantissaAt q e) e) = P := congrArg Encoded.bytes (henc.symm.trans h)
    have hm : InMantissaRange (mantissaAt q e) := (mantissaFits_iff_inMantissaRange _).1 hfit
    refine ⟨mantissaAt q e, e, ?_, abs_error_le_of_nearest (nearest_mantissaAt q e), ?_⟩
    · exact decodeAs_of_length .dpt9 ref rfl ((decDpt9_bytesOfWord _).trans (busFloatOf_busFloatWord hm he))
    · rw [← mantissaFits_one_iff]
      constructor
      · exact fun hle => mantissaFits_mono hle hfit
      · intro hone
        by_contra hgt
        simp [hleast 1 (Nat.lt_of_not_le hgt)] at hone
  · cases henc.symm.trans h

end Sys2Proof.Machine

/-! # Illegal words, STATUS and RESET (`44_system.md`)

STATUS and RESET over their own operand record are one equation each. What the status word reads as a number rests
on its fields sharing no bit. -/

namespace Sys2Proof.Machine

/-- Settles O57: the answer of an illegal word depends on neither its bytes nor its operands nor the record. -/
theorem illegalChangesNothing : Obligations.IllegalChangesNothing := fun _ _ s =>
  congrArg Host.Outcome.next (illegalCommand_eq s)

/-! ## The status word (R27) -/

/-- A field placed at bit `k` of a wider word that has room for it loses no bit. -/
theorem toNat_setWidth_shiftLeft {w n k : Nat} (x : BitVec w) (hroom : w + k ≤ n) :
    (x.setWidth n <<< k).toNat = x.toNat <<< k := by
  have hx : x.toNat < 2 ^ n := x.isLt.trans_le (Nat.pow_le_pow_right (by decide) (by omega))
  have hshift : x.toNat <<< k < 2 ^ n :=
    (Nat.shiftLeft_lt x.isLt).trans_le (Nat.pow_le_pow_right (by decide) hroom)
  rw [BitVec.toNat_shiftLeft, BitVec.toNat_setWidth, Nat.mod_eq_of_lt hx, Nat.mod_eq_of_lt hshift]

/-- The number of the status word: each field lies above the bits of those before it (R27). -/
theorem toNat_statusWord (s : State) :
    (statusWord s).toNat = s.fault.toNat + 16 * s.faultCause.toNat + 256 * s.faultLen.toNat := by
  have hfault : ((BitVec.ofBool s.fault).setWidth 32).toNat = s.fault.toNat := by cases s.fault <;> rfl
  have hbit : s.fault.toNat < 2 ^ 4 := by have := s.fault.toNat_lt; omega
  have hlow : s.faultCause.toNat <<< 4 + s.fault.toNat < 2 ^ 8 := by
    have := s.faultCause.isLt
    rw [Nat.shiftLeft_eq]
    omega
  calc (statusWord s).toNat
      = s.fault.toNat ||| s.faultCause.toNat <<< 4 ||| s.faultLen.toNat <<< 8 := by
        rw [statusWord, BitVec.toNat_or, BitVec.toNat_or, hfault, toNat_setWidth_shiftLeft _ (by decide),
          toNat_setWidth_shiftLeft _ (by decide)]
    _ = s.faultLen.toNat <<< 8 + (s.faultCause.toNat <<< 4 + s.fault.toNat) := by
        rw [Nat.shiftLeft_add_eq_or_of_lt hlow, Nat.shiftLeft_add_eq_or_of_lt hbit, Nat.or_comm s.fault.toNat,
          Nat.or_comm (s.faultLen.toNat <<< 8)]
    _ = s.fault.toNat + 16 * s.faultCause.toNat + 256 * s.faultLen.toNat := by
        simp only [Nat.shiftLeft_eq]
        omega

/-! ## The two commands over their own record (R222, R223) -/

/-- STATUS answers the word, the length and the frame. -/
theorem exec_status_of_nothing {s : State} (hop : s.operand = .nothing) :
    exec .status s = .next (s.reply (.status .noError (statusWord s) (pendingLen s) s.faultFrame)) := by
  show Host.Outcome.next (statusCommand s) = _
  rw [statusCommand, hop]

/-- RESET makes the block new and answers. -/
theorem exec_reset_of_nothing {s : State} (hop : s.operand = .nothing) :
    exec .reset s = .next ((resetBlock s).reply (.plain .noError)) := by
  show Host.Outcome.next (resetCommand s) = _
  rw [resetCommand, hop]

/-- The block after RESET has its values of the start, and the rest is not touched (R261). -/
theorem resetBlock_eq (s : State) : resetBlock s =
    { s with pending := State.reset.pending, fault := State.reset.fault, faultCause := State.reset.faultCause,
             faultLen := State.reset.faultLen, faultFrame := State.reset.faultFrame } := rfl

/-- Settles O58, by the number of the status word. -/
theorem statusShowsRecord : Obligations.StatusShowsRecord := fun s hop =>
  ⟨statusWord s, exec_status_of_nothing hop, toNat_statusWord s⟩

/-- Settles O59: RESET answers over the block as new. -/
theorem resetGivesNewInstance : Obligations.ResetGivesNewInstance := fun s hop => by
  rw [exec_reset_of_nothing hop, resetBlock_eq]
  rfl

end Sys2Proof.Machine

/-! # The refusals (`60_exceptions.md`)

FEED is refused in two ways, in the order of R240: FaultActive (`feedChunk_of_fault`), then Overflow
(`feedChunk_of_overflow`). ENCODE is refused for every type without an encoder, and for every code of no type. -/

namespace Sys2Proof.Machine

open Sys2Proof.Claims

/-! ## FEED refused (R238, R239) -/

/-- Settles O17: the fault is checked before the chunk and the capacity are (`feedChunk_of_fault`). -/
theorem feedRefusedWhileFault : Obligations.FeedRefusedWhileFault :=
  ⟨fun _ chunk ref hop hf =>
    (execFeed_of hop).trans (congrArg Host.Outcome.next (feedChunk_of_fault chunk ref hf)), rfl⟩

/-- What does not fit passes a finite capacity (R23). -/
theorem fitsPending_eq_false_iff {cap : Option Nat} {len : Nat} :
    fitsPending cap len = false ↔ ∃ c, cap = some c ∧ c < len := by
  cases cap <;> simp [fitsPending]

/-- With `FAULT = 0`, a FEED whose chunk does not fit is refused (R239). -/
theorem feedChunk_of_overflow {s : State} {chunk : Bytes} (ref : Ref) (hf : s.fault = false)
    (hfit : fitsPending s.pendingCap (s.pending.length + chunk.length) = false) :
    feedChunk chunk ref s = s.reply (.feed .overflow []) := by
  simp only [feedChunk, hf, hfit, Bool.false_eq_true, if_false]

/-- The end of a drain never answers Overflow: the fault decides between two other codes (R100). -/
theorem endFeed_not_overflow (s : State) :
    ∃ err events, (endFeed s).result = some (.feed err events) ∧ err ≠ .overflow := by
  refine ⟨_, _, endFeed_result s, ?_⟩
  split <;> simp

/-- A FEED of a chunk answers a FEED's record, with Overflow only from `FAULT = 0` and a chunk that does not
fit (R239, R240). -/
theorem feedChunk_result (chunk : Bytes) (ref : Ref) (s : State) :
    ∃ err events, (feedChunk chunk ref s).result = some (.feed err events) ∧
      (err = .overflow →
        s.fault = false ∧ fitsPending s.pendingCap (s.pending.length + chunk.length) = false) := by
  cases hf : s.fault with
  | true =>
    rw [feedChunk_of_fault chunk ref hf]
    exact ⟨_, _, reply_result _ _, by simp⟩
  | false =>
    cases hfit : fitsPending s.pendingCap (s.pending.length + chunk.length) with
    | false =>
      rw [feedChunk_of_overflow ref hf hfit]
      exact ⟨_, _, reply_result _ _, fun _ => ⟨rfl, rfl⟩⟩
    | true =>
      rw [feedChunk_of_fits ref hf hfit]
      obtain ⟨err, events, hresult, hne⟩ := endFeed_not_overflow (feedDrain (beginFeed chunk ref s))
      exact ⟨err, events, hresult, fun h => absurd h hne⟩

/-- Settles O18: passing a finite capacity is not fitting (`fitsPending_eq_false_iff`), and a FEED answers
Overflow just for a chunk that does not fit. -/
theorem feedOverflow : Obligations.FeedOverflow := by
  refine ⟨fun s chunk ref cap hop hf hcap hlt => ?_, fun s chunk ref hop => ?_, rfl⟩
  · have hfit := fitsPending_eq_false_iff.2 ⟨cap, hcap, hlt⟩
    exact (execFeed_of hop).trans (congrArg Host.Outcome.next (feedChunk_of_overflow ref hf hfit))
  · obtain ⟨err, events, hresult, hover⟩ := feedChunk_result chunk ref s
    refine ⟨_, err, events, execFeed_of hop, hresult, fun h => ?_⟩
    obtain ⟨hf, hfit⟩ := hover h
    exact ⟨hf, fitsPending_eq_false_iff.1 hfit⟩

/-! ## ENCODE refused (R234) -/

/-- The decode-only rows are rows of types that have no encoder (R3). -/
theorem decodeOnlyRows_no_encoder :
    ∀ i ∈ decodeOnlyRows, ∃ d ∈ Dpt.all, i = encodeRow d ∧ (encoderOf d).isNone := by
  decide

/-- A type without an encoder is refused, whatever the value's shape (R190, R240). -/
theorem encodeAs_of_no_encoder {d : Dpt} (h : (encoderOf d).isNone) (v : Native) :
    encodeAs d.code v = ⟨.notSupported, []⟩ := by
  rw [encodeAs_code, Option.isNone_iff_eq_none.1 h]
  rfl

/-- Settles O52: neither a decode-only type (`encodeAs_of_no_encoder`) nor an unknown code (`encodeAs_unknown`)
has an encoder to look at the value. -/
theorem encodeNotSupported : Obligations.EncodeNotSupported := by
  refine ⟨fun i hi v => ?_, fun k v hwf s hop => ?_, rfl⟩
  · obtain ⟨d, -, rfl, hnone⟩ := decodeOnlyRows_no_encoder i hi
    exact answersEncoded_encodeRow d (encodeAs_of_no_encoder hnone v)
  · have hk : recognisedCodes.contains k = false := by simpa [Instr.WellFormed, Instr.wellFormed] using hwf
    calc exec (.encodeUnknown k) s = .next (encodeCommand k s) := rfl
      _ = .next (s.reply (.encoded ⟨.notSupported, []⟩)) := by
        rw [encodeCommand_of hop, encodeAs_unknown hk]

end Sys2Proof.Machine

/-! # The values at reset (`70_reset_and_hazards.md`)

Each field's value is that of the definition; the status word is 0 because every field it shows is. -/

namespace Sys2Proof.Machine

/-- The status word is 0 just when the flag and the two fields it shows are: it has no other bits (R27). -/
theorem statusWord_eq_zero_iff {s : State} :
    statusWord s = 0 ↔ s.fault = false ∧ s.faultCause = 0 ∧ s.faultLen = 0 := by
  rw [← BitVec.toNat_inj, toNat_statusWord, ← BitVec.toNat_inj, ← BitVec.toNat_inj, ← Bool.toNat_eq_zero]
  simp only [BitVec.ofNat_eq_ofNat, BitVec.toNat_ofNat, Nat.zero_mod]
  omega

/-- Settles O60: the five fields are the definition's, and a clear record reads as a status word of 0. -/
theorem resetValues : Obligations.ResetValues :=
  ⟨rfl, rfl, rfl, rfl, rfl, statusWord_eq_zero_iff.2 ⟨rfl, rfl, rfl⟩, rfl⟩

end Sys2Proof.Machine

/-! # The frame and telegram rows on their own, and the completion of a step

`exec` of a frame row is one pass of the drain loop, and `exec` of a telegram row is that row's part of the pass
(log entry 7). What a row does then follows from whether its frame is all there (R101, R102). Last come the steps:
every row answers a next state, and a command answers its request (R220, R38). -/

namespace Sys2Proof.Machine

open Sys2Proof.Claims

/-! ## A row runs its part of a pass (R92, R103, R109) -/

/-- The row that a length byte names runs as one pass of the drain loop (log entry 7). -/
theorem exec_decodeFrameLen (n : Byte) (s : State) : exec (decodeFrameLen n) s = .next (framePass n s) := by
  unfold framePass decodeFrameLen
  split_ifs <;> rfl

/-- The embedded row that a control byte names runs as a telegram row (log entry 7). -/
theorem exec_decodeEmbedded (c : Byte) (s : State) :
    exec (decodeEmbedded c) s = .next (runTelegramRow (decodeEmbedded c) s) := by
  unfold decodeEmbedded
  split_ifs <;> rfl

/-- The extended row that a control byte names runs as a telegram row (log entry 7). -/
theorem exec_decodeExtended (c : Byte) (s : State) :
    exec (decodeExtended c) s = .next (runTelegramRow (decodeExtended c) s) := by
  unfold decodeExtended
  split_ifs <;> rfl

/-- Over a frame that is all there, a telegram frame row runs the telegram row of its control byte (R109). -/
theorem exec_frameTelegram_of_le {n : Byte} {s : State} (h : frameTotal n ≤ s.pending.length) :
    exec (.frameTelegram n) s = .next (runTelegramRow (telegramRow n (controlOf s.pending)) s) :=
  congrArg Host.Outcome.next (if_pos h)

/-- Settles O7: a frame row by the branches of its length byte, a telegram by the split of `telegramRow` at 8. -/
theorem drainPassRunsFrameRow : Obligations.DrainPassRunsFrameRow := by
  refine ⟨exec_decodeFrameLen, fun n s hT hn => ?_⟩
  rw [exec_frameTelegram_of_le hT, telegramRow]
  by_cases h8 : n.toNat = 8
  · rw [if_pos h8, if_pos h8.le, exec_decodeEmbedded]
    rfl
  · rw [if_neg h8, if_neg (by omega), exec_decodeExtended]
    rfl

/-! ## Rows of frames of 2 to 9 bytes (R105, R106) -/

/-- Settles O22: each of the three rows consumes its bytes silently. -/
theorem shortConfirmAckAreSilent : Obligations.ShortConfirmAckAreSilent :=
  ⟨fun _ _ h => congrArg Host.Outcome.next (consumeSilently_of_le h),
    fun _ h => congrArg Host.Outcome.next (consumeSilently_of_le h),
    fun _ h => congrArg Host.Outcome.next (consumeSilently_of_le h)⟩

/-- Settles O23: the row consumes its bytes and raises the fault for them. -/
theorem malformedFrameSetsRecord : Obligations.MalformedFrameSetsRecord :=
  fun _ _ h => congrArg Host.Outcome.next (runFrameMalformed_of_le h)

/-! ## Telegram rows (R113, R114) -/

/-- An address inside the front of the accumulator is the accumulator's. -/
theorem addressAt_take {i k : Nat} (h : i + 1 < k) (P : Bytes) : addressAt (P.take k) i = addressAt P i := by
  simp only [← u16be_eq_addressAt, u16be, byteAt_take h, byteAt_take (Nat.lt_of_succ_lt h)]

/-- The event of a pure read, from the accumulator whose first ten bytes it is (R113). -/
theorem pureReadEvents_take_ten (P : Bytes) :
    pureReadEvents (P.take 10) = [.evRead (addressAt P 4) (addressAt P 6)] := by
  simp only [pureReadEvents, sourceOf, destinationOf, u16be_eq_addressAt, addressAt_take, Nat.reduceAdd, Nat.reduceLT]

/-- Settles O25: the row consumes ten bytes and emits the event of a pure read (`pureReadEvents_take_ten`). -/
theorem pureReadEmitsOneEvent : Obligations.PureReadEmitsOneEvent := by
  refine ⟨fun s h => congrArg Host.Outcome.next ?_, fun _ _ => ⟨rfl, rfl⟩⟩
  rw [runTelegramReadPure, consumeTelegram_of_le (n := 8) _ h]
  exact congrArg _ (pureReadEvents_take_ten s.pending)

/-- A decode-path row runs the embedded or the extended form with its own action (R92, R114). -/
theorem exec_of_decodePathRow {i : Instr} {act : Action} {embedded : Bool}
    (h : decodePathRow i = some (act, embedded)) (s : State) :
    exec i s = .next (if embedded = true then embeddedTelegram act s else extendedTelegram act s) := by
  unfold decodePathRow at h
  split at h <;> cases h <;> rfl

/-- A whole frame at the front is consumed and emits its events (R102). -/
theorem consumeTelegram_isFrame {F rest : Bytes} {s : State} (f : Bytes → List Event) (h : IsFrame F)
    (hp : s.pending = F ++ rest) : consumeTelegram (F.getD 1 0) f s = (s.setPending rest).emit (f F) := by
  obtain ⟨-, hT⟩ := completeFrame_eq_some.1 (completeFrame_isFrame rest h)
  rw [← hp] at hT
  rw [consumeTelegram_of_le f hT, frameTotal_isFrame h, hp, List.take_left, List.drop_left]

/-- An embedded row over a whole frame of length field 8 emits the three events (R114). -/
theorem embeddedTelegram_isFrame {F rest : Bytes} {s : State} (act : Action) (h : IsFrame F)
    (h8 : byteNum F 1 = 8) (hp : s.pending = F ++ rest) :
    embeddedTelegram act s = (s.setPending rest).emit (threeEvents s.lookup s.ref act F) := by
  have hn : F.getD 1 0 = 8 := BitVec.eq_of_toNat_eq h8
  rw [embeddedTelegram, ← hn, consumeTelegram_isFrame _ h hp, decodePathEvents_isFrame h]

/-- An extended row over a whole frame of length field 9 or more emits the three events (R114). -/
theorem extendedTelegram_isFrame {F rest : Bytes} {s : State} (act : Action) (h : IsFrame F)
    (h9 : 9 ≤ byteNum F 1) (hp : s.pending = F ++ rest) :
    extendedTelegram act s = (s.setPending rest).emit (threeEvents s.lookup s.ref act F) := by
  have hl : lengthField s.pending = some (F.getD 1 0) := by
    rw [hp, lengthField_append rest (lengthField_isFrame h)]
  rw [extendedTelegram_of hl h9, consumeTelegram_isFrame _ h hp, decodePathEvents_isFrame h]

/-- The event name of an action is the one of the table (R78). -/
theorem eventName_eq_nameByTable (act : Action) : act.eventName = nameByTable act := by
  cases act <;> rfl

/-- Settles O26: a row runs its form (`exec_of_decodePathRow`), and both forms emit the three events. -/
theorem decodePathEmitsThreeEvents : Obligations.DecodePathEmitsThreeEvents := by
  refine ⟨fun i act embedded F rest s hrow hF hform hp => ?_, fun L ref act F => ?_⟩
  · rw [exec_of_decodePathRow hrow]
    cases embedded with
    | true => exact congrArg Host.Outcome.next (embeddedTelegram_isFrame act hF hform hp)
    | false => exact congrArg Host.Outcome.next (extendedTelegram_isFrame act hF hform hp)
  · simp only [threeEvents, List.map, Event.name, eventName_eq_nameByTable]

/-! ## Rows whose frame is not all there (R101, log entry 7) -/

/-- A malformed frame that is not all there stays. -/
theorem runFrameMalformed_of_lt {j : BitVec 2} {s : State} (h : s.pending.length < j.toNat + 6) :
    runFrameMalformed j s = s := by
  simp only [runFrameMalformed, takeFrame_of_lt h]

/-- A telegram frame that is not all there stays. -/
theorem runFrameTelegram_of_lt {n : Byte} {s : State} (h : s.pending.length < frameTotal n) :
    runFrameTelegram n s = s := if_neg (Nat.not_le_of_lt h)

/-- An extended telegram that is not all there, or has no length field yet, stays. -/
theorem extendedTelegram_of_noCompleteFrame {act : Action} {s : State} (h : NoCompleteFrame s.pending) :
    extendedTelegram act s = s := by
  unfold extendedTelegram
  split
  · next n hl => rw [consumeTelegram_of_lt _ (h n hl), ite_self]
  · rfl

/-- A row that reads its length field waits for the complete frame at the front. -/
theorem noCompleteFrame_of_length_lt {bs : Bytes}
    (h : ∀ T, (lengthField bs).map (fun n => n.toNat + 2) = some T → bs.length < T) : NoCompleteFrame bs :=
  fun n hl => h (frameTotal n) (by rw [hl]; rfl)

/-- Settles O27: the rows by the way they take their frame off; none takes one that is not all there. -/
theorem incompleteFrameStays : Obligations.IncompleteFrameStays := by
  intro i s hrow h
  cases i with
  | frameShort | frameConfirm | frameAck => exact congrArg Host.Outcome.next (consumeSilently_of_lt (h _ rfl))
  | frameMalformed => exact congrArg Host.Outcome.next (runFrameMalformed_of_lt (h _ rfl))
  | frameTelegram => exact congrArg Host.Outcome.next (runFrameTelegram_of_lt (h _ rfl))
  | telegramReadPure | telegramWriteEmb | telegramResponseEmb | telegramUnknownEmb =>
    exact congrArg Host.Outcome.next (consumeTelegram_of_lt (n := 8) _ (h _ rfl))
  | telegramReadExt | telegramWriteExt | telegramResponseExt | telegramUnknownExt =>
    exact congrArg Host.Outcome.next (extendedTelegram_of_noCompleteFrame (noCompleteFrame_of_length_lt h))
  | _ => exact absurd rfl hrow

/-! ## Steps (R38, R220) -/

/-- Every row's meaning is a next state (log entry 8). -/
theorem exec_completes (i : Instr) (s : State) : ∃ t, exec i s = .next t := by
  cases i <;> exact ⟨_, rfl⟩

/-- Settles O9: a step is `exec` of a command, which completes, or waits. -/
theorem everyStepCompletes : Obligations.EveryStepCompletes := by
  refine ⟨exec_completes, fun s => ?_⟩
  cases hp : s.port with
  | nil => exact ⟨s, step_of_idle hp⟩
  | cons r rest =>
    rw [step_of_request hp]
    exact exec_completes _ _

/-- A command leaves the port and the capacity as they are, and answers with a result record (R38). -/
theorem exec_command_answers {w : Word} {s t : State} (h : exec (decodeCommand w) s = .next t) :
    t.port = s.port ∧ t.pendingCap = s.pendingCap ∧ t.result ≠ none := by
  rcases exec_command_cases h with ⟨r, rfl, -⟩ | ⟨-, -, rfl⟩ | ⟨-, chunk, ref, -, -, -, rfl⟩
  · simp
  · simp
  · obtain ⟨hcap, hport, -⟩ := feedDrain_keeps (beginFeed chunk ref s)
    simp [hcap, hport]

/-- Settles O10: the step takes the request, and its command answers it (`exec_command_answers`). -/
theorem stepAnswersOneRequest : Obligations.StepAnswersOneRequest := by
  intro s t h
  rcases step_cases h with ⟨hp, rfl⟩ | ⟨r, rest, hp, he⟩
  · simp [hp]
  · obtain ⟨hport, hcap, hresult⟩ := exec_command_answers he
    exact ⟨by simp [hport, hp], hcap, fun _ => hresult⟩

end Sys2Proof.Machine
